-- ==== Sys2Proof/Word.lean ====
section
/-! DEFINITION. The word types of the PX-340: what the manual treats as bits. -/

namespace Sys2Proof

/-- One byte on the serial link (R177). -/
abbrev Byte := BitVec 8

/-- Two bytes: a 16-bit field of a message (R190) or a pixel word of the frame store (R27). -/
abbrev Half := BitVec 16

/-- Four bytes: the nominal facet period of Set Scan Geometry (R190). -/
abbrev Quad := BitVec 32

end Sys2Proof
end

