-- ==== Sys2Proof/Config.lean ====
section
/-! DEFINITION. The sizes the PX-340 fixes, and the free values the manual leaves open. -/

namespace Sys2Proof.Config

/-- R1: the slots of the Job Store. -/
def jobSlots : Nat := 32
/-- R24: descriptors of the GLOBAL table. -/
def globalPlanes : Nat := 64
/-- R24: descriptors of the REEL table. -/
def reelPlanes : Nat := 192
/-- R27: line slots of the frame store. -/
def lineSlots : Nat := 65536
/-- R47: curve sets. -/
def curveSets : Nat := 16
/-- R47: drive entries of one channel curve. -/
def curveEntries : Nat := 4096
/-- R51: entries one Curve Data request may carry. -/
def curveChunk : Nat := 512
/-- R87: line sets the Line Prefetch Queue holds. -/
def queueDepth : Nat := 8
/-- R42: complete line sets from which the arbiter alternates between its claimants. -/
def sharedDepth : Nat := 4
/-- R6: where the spoiled and suspect counts of a job stop. -/
def countStop : Nat := 64
/-- R170: entries of the Spoil Log. -/
def logEntries : Nat := 64
/-- R178: places of the receive buffer. -/
def bufferPlaces : Nat := 2
/-- R177: the longest payload of a message. -/
def maxPayload : Nat := 8200
/-- R67: the lead-in time that 0 stands for, in ms. -/
def defaultLeadIn : Nat := 2000
/-- R165: the trim range and the step limit, in units of 1/4096. -/
def trimMin : Nat := 3072
def trimMax : Nat := 5120
def trimStep : Nat := 64
/-- Section 4 of 00_scope.md: a trim of 4096 means times 1.000. -/
def trimUnit : Nat := 4096
/-- R62: the level of the reference pulse before trim. -/
def referenceLevel : Nat := 2048

/-- R27, R45: the contents of a frame-store word that no Line Data write has stored since the
hardware reset numbered `epoch` are unspecified: a FREE VALUE (log 12). -/
opaque freeWord (epoch slot word : Nat) : Half

/-- R63: the contents of a curve entry that has not been loaded are unspecified: level and duty
are FREE VALUES (log 13). -/
opaque freeEntry (epoch set channel entry : Nat) : Nat × Nat

end Sys2Proof.Config
end

