-- ==== Sys2Proof/Syntax.lean ====
section
/-! DEFINITION. The commands of the PX-340: one constructor of `Instr` for each row of
spec/opcode_table.json, and the types of their operands. -/

namespace Sys2Proof

/-- The three colour channels (00_scope.md section 4). -/
inductive Channel where
  | red | green | blue
  deriving DecidableEq, Repr

/-- One value for each channel, in the order red, green, blue. -/
structure Rgb (α : Type) where
  red : α
  green : α
  blue : α
  deriving DecidableEq, Repr

/-- A link message less its start byte, length field and check: type, request tag, payload (R177). -/
structure Message where
  type : Byte
  tag : Byte
  payload : List Byte
  deriving DecidableEq, Repr

/-- The items of a Queue Job payload as they stand on the wire (R7, R190). -/
structure QueueJobItems where
  tag : Half
  kind : Byte
  presence : Byte
  selectors : Rgb Half
  curveSet : Byte
  flash : Rgb Half
  repeatCount : Byte
  release : Byte
  deriving DecidableEq, Repr

/-- One drive entry of a Curve Data payload: level in two bytes, then duty (R190). -/
structure WireEntry where
  level : Half
  duty : Byte
  deriving DecidableEq, Repr

/-- The items of an Open Reel payload (R116). -/
structure OpenReelItems where
  capacity : Half
  start : Half
  perforations : Byte
  lines : Half
  width : Half
  offset : Half
  deriving DecidableEq, Repr

/-- The six items of a Set Scan Geometry payload (R137, R138). -/
structure GeometryItems where
  facets : Byte
  period : Quad
  pixelPeriod : Half
  tolerance : Half
  missLimit : Byte
  revolutions : Byte
  deriving DecidableEq, Repr

/-- Target, soft window and hard window of one channel (R166). -/
structure TargetItems where
  target : Half
  soft : Half
  hard : Half
  deriving DecidableEq, Repr

/-- The items of a Set Power Targets payload (R166). -/
structure PowerItems where
  channels : Rgb TargetItems
  hardCount : Byte
  osr : Half
  deriving DecidableEq, Repr

/-- One edge of a channel's bit clock (R159): its time in ps after the facet sync of the line under way, whether the
clock rises, and the level of the bitstream at it. -/
structure ClockEdge where
  time : Nat
  rising : Bool
  bit : Bool
  deriving DecidableEq, Repr

/-- The commands. A host request carries the request tag `rt` and its payload's items as they stand
on the wire. `edges` of POWER_READING are the edges of each channel's bit clock since the facet sync of
the line, up to this instant; `elapsed` of SOS_PULSE is the time since the previous SOS in ns. -/
inductive Instr where
  -- host requests: Job Store
  | queueJob (rt : Byte) (p : QueueJobItems)
  | cancelJob (rt : Byte) (tag : Half)
  | queryJob (rt : Byte) (tag : Half)
  -- host requests: Plane Tables
  | definePlane (rt : Byte) (sel base limit width : Half)
  | undefinePlane (rt : Byte) (sel : Half)
  | rewindPlane (rt : Byte) (sel : Half)
  | lineData (rt : Byte) (sel line count : Half) (words : List Half)
  | queryPlane (rt : Byte) (sel : Half)
  -- host requests: Curve Memory
  | beginCurve (rt set : Byte)
  | curveData (rt set channel : Byte) (first count : Half) (entries : List WireEntry)
  | commitCurve (rt set : Byte)
  | discardCurve (rt set : Byte)
  | queryCurve (rt set : Byte)
  | setDriveOptions (rt placement : Byte)
  -- host requests: Run Controller
  | startRun (rt mode : Byte) (leadIn : Half)
  | stopRun (rt mode : Byte)
  | pauseRun (rt : Byte)
  | resumeRun (rt : Byte) (leadIn : Half)
  -- host requests: Transport Controller
  | openReel (rt : Byte) (p : OpenReelItems)
  | closeReel (rt : Byte)
  | registerGate (rt gate : Byte)
  | advanceFrames (rt count : Byte)
  | clearTransport (rt : Byte)
  | setTransportTiming (rt : Byte) (timeout : Half) (settle : Byte)
  -- host requests: Scan Timing Unit
  | setScanGeometry (rt : Byte) (p : GeometryItems)
  | loadFacetCorrections (rt count : Byte) (values : List Half)
  | calibrateScan (rt : Byte)
  -- host requests: Laser Drive Unit and Power Monitor
  | enableLasers (rt mask : Byte)
  | disableLasers (rt mask : Byte)
  | setPowerTargets (rt : Byte) (p : PowerItems)
  | readMonitor (rt : Byte)
  -- host requests: Spoil Log and link
  | takeSpoilEntries (rt count : Byte)
  | getStatus (rt : Byte)
  | setNotices (rt mask : Byte)
  | softReset (rt : Byte)
  -- link events
  | messageReceived (bytes : List Byte)
  | interByteGapTimeout
  | transmitStart (hrdy : Bool)
  | messageTransmitted
  | hardwareReset
  | resetRelease (rate1 rate0 : Bool)
  -- scan events
  | sosPulse (elapsed : Nat)
  | indexPulse
  | calibrationIndexDeadline
  | sosGapWatchdogExpiry
  | noSignalWatchdogExpiry
  -- transport events
  | perfPulse
  | pullDownTimerExpiry
  | settleTimerExpiry
  | filmPresentChange (level : Bool)
  | tensionOkChange (level : Bool)
  | gateClosedChange (level : Bool)
  | endSensorChange (level : Bool)
  -- laser and monitor events
  | interlockChange (level : Bool)
  | laserReadyChange (levels : Rgb Bool)
  | monitorClockLost (channel : Channel)
  | powerReading (edges : Rgb (List ClockEdge))
  -- frame events
  | leadInTimerExpiry
  | prefetchReadComplete
  | lineDataWriteComplete
  | frameCleanEnd
  | monitorClockReturn (channel : Channel)
  deriving DecidableEq, Repr

end Sys2Proof
end

