-- ==== Sys2Proof/WellFormed.lean ====
section
/-! DEFINITION. Which commands are well formed: a request's lists have the length its own count
field names and fit the longest payload, a reading counts no more ones than the largest OSR, and a
reception brings at least one byte. Fixed-width fields cannot be ill formed. -/

namespace Sys2Proof

/-- The edges of a bit clock are listed in the order in which they come (R159). -/
def edgesInOrder (edges : List ClockEdge) : Bool := decide ((edges.map ClockEdge.time).Pairwise (· < ·))

/-- The checks on a command's operands. A command that fails one still has a meaning (the link
refuses or discards the message, R179, R181); the statements about a request's own effect ask for
it. -/
def Instr.wellFormed : Instr → Bool
  | .lineData _ _ _ count words => words.length = count.toNat && 6 + 2 * words.length ≤ Config.maxPayload
  | .curveData _ _ _ _ count entries =>
    entries.length = count.toNat && 6 + 3 * entries.length ≤ Config.maxPayload
  | .loadFacetCorrections _ count values => values.length = count.toNat
  | .messageReceived bytes => !bytes.isEmpty
  | .powerReading edges => edgesInOrder edges.red && edgesInOrder edges.green && edgesInOrder edges.blue
  | .queueJob .. | .cancelJob .. | .queryJob .. | .definePlane .. | .undefinePlane ..
  | .rewindPlane .. | .queryPlane .. | .beginCurve .. | .commitCurve .. | .discardCurve ..
  | .queryCurve .. | .setDriveOptions .. | .startRun .. | .stopRun .. | .pauseRun .. | .resumeRun ..
  | .openReel .. | .closeReel .. | .registerGate .. | .advanceFrames .. | .clearTransport ..
  | .setTransportTiming .. | .setScanGeometry .. | .calibrateScan .. | .enableLasers ..
  | .disableLasers .. | .setPowerTargets .. | .readMonitor .. | .takeSpoilEntries .. | .getStatus ..
  | .setNotices .. | .softReset .. | .interByteGapTimeout | .transmitStart .. | .messageTransmitted
  | .hardwareReset | .resetRelease .. | .sosPulse .. | .indexPulse | .calibrationIndexDeadline
  | .sosGapWatchdogExpiry | .noSignalWatchdogExpiry | .perfPulse | .pullDownTimerExpiry
  | .settleTimerExpiry | .filmPresentChange .. | .tensionOkChange .. | .gateClosedChange ..
  | .endSensorChange .. | .interlockChange .. | .laserReadyChange .. | .monitorClockLost ..
  | .leadInTimerExpiry | .prefetchReadComplete | .lineDataWriteComplete | .frameCleanEnd
  | .monitorClockReturn .. => true

end Sys2Proof
end

