-- ==== Sys2Proof/Decode.lean ====
section
/-! DEFINITION. The wire coding of the 35 host requests (R190): the request a message spells
(`Message.decode`), the message a request is sent as (`Instr.encode`), the payload length the link
expects (R181), the byte order, the check and frame of a message (R177), and the bits of bytes on a data
pair (R176). The opcode table gives no row any bits, so `decodeTableWord` reads no command. -/

namespace Sys2Proof

/-- The host's question about the table's bits: no row of spec/opcode_table.json gives any. -/
def decodeTableWord (_nbits _w : Nat) : Option Instr := none

/-! ## Byte order: little-endian (R190) -/

/-- The field whose first byte on the wire is `lo`. -/
def halfOf (lo hi : Byte) : Half := hi ++ lo
/-- First byte of a two-byte field. -/
def loByte (h : Half) : Byte := h.extractLsb' 0 8
/-- Second byte of a two-byte field. -/
def hiByte (h : Half) : Byte := h.extractLsb' 8 8
/-- The two bytes of a field, in the order sent. -/
def halfBytes (h : Half) : List Byte := [loByte h, hiByte h]
/-- The field whose bytes in the order sent are `a b c d`. -/
def quadOf (a b c d : Byte) : Quad := d ++ (c ++ (b ++ a))
/-- The four bytes of a field, in the order sent. -/
def quadBytes (q : Quad) : List Byte :=
  [q.extractLsb' 0 8, q.extractLsb' 8 8, q.extractLsb' 16 8, q.extractLsb' 24 8]

/-- A number sent in one byte (R190). -/
def u8 (n : Nat) : List Byte := [BitVec.ofNat 8 n]
/-- A number sent in two bytes (R190). -/
def u16 (n : Nat) : List Byte := halfBytes (BitVec.ofNat 16 n)
/-- A number sent in four bytes (R190). -/
def u32 (n : Nat) : List Byte := quadBytes (BitVec.ofNat 32 n)

/-- Pixel words and corrections: the payload's rest as two-byte fields. -/
def halvesOf : List Byte → Option (List Half)
  | [] => some []
  | [_] => none
  | lo :: hi :: rest => (halvesOf rest).map (halfOf lo hi :: ·)

/-- Drive entries: the payload's rest as three-byte entries (R190). -/
def entriesOf : List Byte → Option (List WireEntry)
  | [] => some []
  | [_] => none
  | [_, _] => none
  | lo :: hi :: duty :: rest => (entriesOf rest).map (⟨halfOf lo hi, duty⟩ :: ·)

/-- The bytes of one drive entry (R190). -/
def entryBytes (e : WireEntry) : List Byte := halfBytes e.level ++ [e.duty]

/-- The bytes of three fields, red, green, blue. -/
def rgbHalfBytes (x : Rgb Half) : List Byte := halfBytes x.red ++ halfBytes x.green ++ halfBytes x.blue

/-! ## The message of a request (type-code table and payload orders of R190) -/

/-- A repeat count or frame count: one byte in which 0 stands for 256 (R190). -/
def countOf (b : Byte) : Nat := if b.toNat = 0 then 256 else b.toNat

/-- The message a host request is sent as; `none` for a command that is no request. -/
def Instr.encode : Instr → Option Message
  | .queueJob rt p => some ⟨0x01, rt, halfBytes p.tag ++ [p.kind, p.presence] ++ rgbHalfBytes p.selectors ++
      [p.curveSet] ++ rgbHalfBytes p.flash ++ [p.repeatCount, p.release]⟩
  | .cancelJob rt tag => some ⟨0x02, rt, halfBytes tag⟩
  | .queryJob rt tag => some ⟨0x03, rt, halfBytes tag⟩
  | .definePlane rt sel base limit width =>
    some ⟨0x08, rt, halfBytes sel ++ halfBytes base ++ halfBytes limit ++ halfBytes width⟩
  | .undefinePlane rt sel => some ⟨0x09, rt, halfBytes sel⟩
  | .rewindPlane rt sel => some ⟨0x0A, rt, halfBytes sel⟩
  | .lineData rt sel line count words =>
    some ⟨0x0B, rt, halfBytes sel ++ halfBytes line ++ halfBytes count ++ words.flatMap halfBytes⟩
  | .queryPlane rt sel => some ⟨0x0C, rt, halfBytes sel⟩
  | .beginCurve rt set => some ⟨0x10, rt, [set]⟩
  | .curveData rt set channel first count entries =>
    some ⟨0x11, rt, [set, channel] ++ halfBytes first ++ halfBytes count ++ entries.flatMap entryBytes⟩
  | .commitCurve rt set => some ⟨0x12, rt, [set]⟩
  | .discardCurve rt set => some ⟨0x13, rt, [set]⟩
  | .queryCurve rt set => some ⟨0x14, rt, [set]⟩
  | .setDriveOptions rt placement => some ⟨0x15, rt, [placement]⟩
  | .startRun rt mode leadIn => some ⟨0x18, rt, [mode] ++ halfBytes leadIn⟩
  | .stopRun rt mode => some ⟨0x19, rt, [mode]⟩
  | .pauseRun rt => some ⟨0x1A, rt, []⟩
  | .resumeRun rt leadIn => some ⟨0x1B, rt, halfBytes leadIn⟩
  | .openReel rt p => some ⟨0x20, rt, halfBytes p.capacity ++ halfBytes p.start ++ [p.perforations] ++
      halfBytes p.lines ++ halfBytes p.width ++ halfBytes p.offset⟩
  | .closeReel rt => some ⟨0x21, rt, []⟩
  | .registerGate rt gate => some ⟨0x22, rt, [gate]⟩
  | .advanceFrames rt count => some ⟨0x23, rt, [count]⟩
  | .clearTransport rt => some ⟨0x24, rt, []⟩
  | .setTransportTiming rt timeout settle => some ⟨0x25, rt, halfBytes timeout ++ [settle]⟩
  | .setScanGeometry rt p => some ⟨0x28, rt, [p.facets] ++ quadBytes p.period ++ halfBytes p.pixelPeriod ++
      halfBytes p.tolerance ++ [p.missLimit, p.revolutions]⟩
  | .loadFacetCorrections rt count values => some ⟨0x29, rt, [count] ++ values.flatMap halfBytes⟩
  | .calibrateScan rt => some ⟨0x2A, rt, []⟩
  | .enableLasers rt mask => some ⟨0x30, rt, [mask]⟩
  | .disableLasers rt mask => some ⟨0x31, rt, [mask]⟩
  | .setPowerTargets rt p => some ⟨0x32, rt,
      halfBytes p.channels.red.target ++ halfBytes p.channels.red.soft ++ halfBytes p.channels.red.hard ++
      halfBytes p.channels.green.target ++ halfBytes p.channels.green.soft ++ halfBytes p.channels.green.hard ++
      halfBytes p.channels.blue.target ++ halfBytes p.channels.blue.soft ++ halfBytes p.channels.blue.hard ++
      [p.hardCount] ++ halfBytes p.osr⟩
  | .readMonitor rt => some ⟨0x33, rt, []⟩
  | .takeSpoilEntries rt count => some ⟨0x38, rt, [count]⟩
  | .getStatus rt => some ⟨0x3C, rt, []⟩
  | .setNotices rt mask => some ⟨0x3D, rt, [mask]⟩
  | .softReset rt => some ⟨0x3E, rt, []⟩
  | .messageReceived .. | .interByteGapTimeout | .transmitStart .. | .messageTransmitted
  | .hardwareReset | .resetRelease .. | .sosPulse .. | .indexPulse | .calibrationIndexDeadline
  | .sosGapWatchdogExpiry | .noSignalWatchdogExpiry | .perfPulse | .pullDownTimerExpiry
  | .settleTimerExpiry | .filmPresentChange .. | .tensionOkChange .. | .gateClosedChange ..
  | .endSensorChange .. | .interlockChange .. | .laserReadyChange .. | .monitorClockLost ..
  | .powerReading .. | .leadInTimerExpiry | .prefetchReadComplete | .lineDataWriteComplete
  | .frameCleanEnd | .monitorClockReturn .. => none

/-! ## The request of a message -/

/-- A payload of one byte. -/
def read1 (mk : Byte → Instr) : List Byte → Option Instr
  | [a] => some (mk a)
  | _ => none

/-- A payload of one two-byte field. -/
def readHalf (mk : Half → Instr) : List Byte → Option Instr
  | [a, b] => some (mk (halfOf a b))
  | _ => none

/-- An empty payload. -/
def readNone (i : Instr) : List Byte → Option Instr
  | [] => some i
  | _ :: _ => none

/-- The Queue Job payload (layout table of R190). -/
def readQueueJob (rt : Byte) : List Byte → Option Instr
  | [t0, t1, k, pr, r0, r1, g0, g1, b0, b1, cs, fr0, fr1, fg0, fg1, fb0, fb1, n, rel] =>
    some (.queueJob rt ⟨halfOf t0 t1, k, pr, ⟨halfOf r0 r1, halfOf g0 g1, halfOf b0 b1⟩, cs,
      ⟨halfOf fr0 fr1, halfOf fg0 fg1, halfOf fb0 fb1⟩, n, rel⟩)
  | _ => none

/-- The Define Plane payload (R29). -/
def readDefinePlane (rt : Byte) : List Byte → Option Instr
  | [s0, s1, b0, b1, l0, l1, w0, w1] =>
    some (.definePlane rt (halfOf s0 s1) (halfOf b0 b1) (halfOf l0 l1) (halfOf w0 w1))
  | _ => none

/-- The Line Data payload (layout table of R190): as many words as the pixel count names. -/
def readLineData (rt : Byte) : List Byte → Option Instr
  | s0 :: s1 :: l0 :: l1 :: c0 :: c1 :: rest =>
    match halvesOf rest with
    | some words =>
      if words.length = (halfOf c0 c1).toNat then
        some (.lineData rt (halfOf s0 s1) (halfOf l0 l1) (halfOf c0 c1) words)
      else none
    | none => none
  | _ => none

/-- The Curve Data payload (R51): as many entries as its count names. -/
def readCurveData (rt : Byte) : List Byte → Option Instr
  | set :: ch :: f0 :: f1 :: c0 :: c1 :: rest =>
    match entriesOf rest with
    | some es =>
      if es.length = (halfOf c0 c1).toNat then
        some (.curveData rt set ch (halfOf f0 f1) (halfOf c0 c1) es)
      else none
    | none => none
  | _ => none

/-- The Load Facet Corrections payload (R140): as many values as its count names. -/
def readCorrections (rt : Byte) : List Byte → Option Instr
  | count :: rest =>
    match halvesOf rest with
    | some vs => if vs.length = count.toNat then some (.loadFacetCorrections rt count vs) else none
    | none => none
  | [] => none

/-- The Start Run payload (R67). -/
def readStartRun (rt : Byte) : List Byte → Option Instr
  | [m, l0, l1] => some (.startRun rt m (halfOf l0 l1))
  | _ => none

/-- The Open Reel payload (R116). -/
def readOpenReel (rt : Byte) : List Byte → Option Instr
  | [c0, c1, s0, s1, p, l0, l1, w0, w1, o0, o1] =>
    some (.openReel rt ⟨halfOf c0 c1, halfOf s0 s1, p, halfOf l0 l1, halfOf w0 w1, halfOf o0 o1⟩)
  | _ => none

/-- The Set Transport Timing payload (R132). -/
def readTransportTiming (rt : Byte) : List Byte → Option Instr
  | [t0, t1, s] => some (.setTransportTiming rt (halfOf t0 t1) s)
  | _ => none

/-- The Set Scan Geometry payload (R138). -/
def readGeometry (rt : Byte) : List Byte → Option Instr
  | [f, p0, p1, p2, p3, x0, x1, t0, t1, m, r] =>
    some (.setScanGeometry rt ⟨f, quadOf p0 p1 p2 p3, halfOf x0 x1, halfOf t0 t1, m, r⟩)
  | _ => none

/-- The Set Power Targets payload (R166). -/
def readPowerTargets (rt : Byte) : List Byte → Option Instr
  | [rt0, rt1, rs0, rs1, rh0, rh1, gt0, gt1, gs0, gs1, gh0, gh1, bt0, bt1, bs0, bs1, bh0, bh1, hc, o0, o1] =>
    some (.setPowerTargets rt ⟨⟨⟨halfOf rt0 rt1, halfOf rs0 rs1, halfOf rh0 rh1⟩,
      ⟨halfOf gt0 gt1, halfOf gs0 gs1, halfOf gh0 gh1⟩,
      ⟨halfOf bt0 bt1, halfOf bs0 bs1, halfOf bh0 bh1⟩⟩, hc, halfOf o0 o1⟩)
  | _ => none

/-- The request a message spells; `none` for a type the type-code table does not list (R190) or a
payload that has not the length its type asks for (R181). -/
def Message.decode (m : Message) : Option Instr :=
  let rt := m.tag
  match m.type.toNat with
  | 0x01 => readQueueJob rt m.payload
  | 0x02 => readHalf (.cancelJob rt) m.payload
  | 0x03 => readHalf (.queryJob rt) m.payload
  | 0x08 => readDefinePlane rt m.payload
  | 0x09 => readHalf (.undefinePlane rt) m.payload
  | 0x0A => readHalf (.rewindPlane rt) m.payload
  | 0x0B => readLineData rt m.payload
  | 0x0C => readHalf (.queryPlane rt) m.payload
  | 0x10 => read1 (.beginCurve rt) m.payload
  | 0x11 => readCurveData rt m.payload
  | 0x12 => read1 (.commitCurve rt) m.payload
  | 0x13 => read1 (.discardCurve rt) m.payload
  | 0x14 => read1 (.queryCurve rt) m.payload
  | 0x15 => read1 (.setDriveOptions rt) m.payload
  | 0x18 => readStartRun rt m.payload
  | 0x19 => read1 (.stopRun rt) m.payload
  | 0x1A => readNone (.pauseRun rt) m.payload
  | 0x1B => readHalf (.resumeRun rt) m.payload
  | 0x20 => readOpenReel rt m.payload
  | 0x21 => readNone (.closeReel rt) m.payload
  | 0x22 => read1 (.registerGate rt) m.payload
  | 0x23 => read1 (.advanceFrames rt) m.payload
  | 0x24 => readNone (.clearTransport rt) m.payload
  | 0x25 => readTransportTiming rt m.payload
  | 0x28 => readGeometry rt m.payload
  | 0x29 => readCorrections rt m.payload
  | 0x2A => readNone (.calibrateScan rt) m.payload
  | 0x30 => read1 (.enableLasers rt) m.payload
  | 0x31 => read1 (.disableLasers rt) m.payload
  | 0x32 => readPowerTargets rt m.payload
  | 0x33 => readNone (.readMonitor rt) m.payload
  | 0x38 => read1 (.takeSpoilEntries rt) m.payload
  | 0x3C => readNone (.getStatus rt) m.payload
  | 0x3D => read1 (.setNotices rt) m.payload
  | 0x3E => readNone (.softReset rt) m.payload
  | _ => none

/-! ## The link's own checks on a request (R181) -/

/-- The two-byte count at offset 4 of a payload; 0 where the payload is too short to hold it. -/
def countAt4 : List Byte → Nat
  | _ :: _ :: _ :: _ :: c0 :: c1 :: _ => (halfOf c0 c1).toNat
  | _ => 0

/-- The one-byte count at offset 0 of a payload; 0 where the payload is empty. -/
def countAt0 : List Byte → Nat
  | c :: _ => c.toNat
  | [] => 0

/-- The payload length the type-code table gives for a request type; `none` for a type it does not
list (R181, R190). -/
def expectedLength (m : Message) : Option Nat :=
  match m.type.toNat with
  | 0x01 => some 19
  | 0x02 | 0x03 => some 2
  | 0x08 => some 8
  | 0x09 | 0x0A | 0x0C => some 2
  | 0x0B => some (6 + 2 * countAt4 m.payload)
  | 0x10 | 0x12 | 0x13 | 0x14 | 0x15 => some 1
  | 0x11 => some (6 + 3 * countAt4 m.payload)
  | 0x18 => some 3
  | 0x19 => some 1
  | 0x1A => some 0
  | 0x1B => some 2
  | 0x20 => some 11
  | 0x21 => some 0
  | 0x22 | 0x23 => some 1
  | 0x24 => some 0
  | 0x25 => some 3
  | 0x28 => some 11
  | 0x29 => some (1 + 2 * countAt0 m.payload)
  | 0x2A => some 0
  | 0x30 | 0x31 => some 1
  | 0x32 => some 21
  | 0x33 => some 0
  | 0x38 => some 1
  | 0x3C => some 0
  | 0x3D => some 1
  | 0x3E => some 0
  | _ => none

/-! ## Check and frame of a message (R177) -/

/-- One bit of the CRC-16: polynomial 1021h, most significant bit first. -/
def crcBit (c : Half) : Half := if c.msb then (c <<< 1) ^^^ 0x1021 else c <<< 1

/-- One byte of the CRC-16. -/
def crcByte (c : Half) (b : Byte) : Half :=
  let c0 := c ^^^ (b.zeroExtend 16 <<< 8)
  crcBit (crcBit (crcBit (crcBit (crcBit (crcBit (crcBit (crcBit c0)))))))

/-- The CRC-16 of a run of bytes: initial value FFFFh, no final inversion. -/
def crc16 (bytes : List Byte) : Half := bytes.foldl crcByte 0xFFFF

/-- What the check covers: type, tag, the two length bytes and the payload, in the order sent. -/
def Message.covered (m : Message) : List Byte :=
  [m.type, m.tag] ++ u16 m.payload.length ++ m.payload

/-- The start byte of every message. -/
def startByte : Byte := 0xC5

/-- The bytes of a message on the wire. -/
def Message.frame (m : Message) : List Byte :=
  startByte :: (m.covered ++ halfBytes (crc16 m.covered))

/-! ## Bits on a data pair (R176) -/

/-- R176: the bits of a byte in the order sent, least significant bit first. -/
def byteBits (b : Byte) : List Bool :=
  [b.getLsbD 0, b.getLsbD 1, b.getLsbD 2, b.getLsbD 3, b.getLsbD 4, b.getLsbD 5, b.getLsbD 6, b.getLsbD 7]

/-- R176: the bits of bytes on a data pair, one byte after another. -/
def lineBits (bytes : List Byte) : List Bool := bytes.flatMap byteBits

/-- R176: the bytes that bits on a data pair carry, the first bit of each its least significant; bits after the
last whole byte make none. -/
def lineBytes : List Bool → List Byte
  | b0 :: b1 :: b2 :: b3 :: b4 :: b5 :: b6 :: b7 :: rest =>
    BitVec.ofBoolListLE [b0, b1, b2, b3, b4, b5, b6, b7] :: lineBytes rest
  | _ => []

end Sys2Proof
end

