-- ==== Sys2Proof/Machine/State.lean ====
section
/-! DEFINITION. All the state the manual gives the PX-340, block by block, as plain data, and the
state after hardware reset. -/

namespace Sys2Proof

/-- The same value on every channel. -/
def Rgb.same {α : Type} (x : α) : Rgb α := ⟨x, x, x⟩

end Sys2Proof

namespace Sys2Proof.Machine

/-! ## Tables -/

/-- Sparse data by number: pairs with strictly rising numbers, an unlisted number holding nothing. -/
abbrev Table (α : Type) := List (Nat × α)

/-! ## Plane Tables and frame store (02) -/

/-- A well-formed selector (00_scope.md section 4): a table and an index. -/
inductive Selector where
  | global (index : Nat)
  | reel (index : Nat)
  deriving DecidableEq, Repr

/-- A defined plane descriptor (R26). It is FULL exactly when `fill = limit`; an UNDEFINED
descriptor is not listed in the table. -/
structure Plane where
  base : Nat
  limit : Nat
  width : Nat
  fill : Nat
  use : Nat
  deriving DecidableEq, Repr

/-- The contents of the frame store (R27): for each line slot written since hardware reset, the words
stored from word 0 on. A slot not listed, and the words after the last one listed, are unspecified. -/
abbrev Memory := Table (List Half)

/-- The two claimants of the frame store (R41). -/
inductive Claimant where
  | planeWriter | prefetcher
  deriving DecidableEq, Repr

/-- A claim to read one line of one plane (R41). -/
structure ReadClaim where
  sel : Selector
  slot : Nat
  width : Nat
  deriving DecidableEq, Repr

/-- The claim of a Line Data request to write one line of one plane (R37). -/
structure WriteClaim where
  sel : Selector
  slot : Nat
  words : List Half
  deriving DecidableEq, Repr

/-- The access in progress (R41). The words of a read marked `discard` are discarded (R43). -/
inductive Access where
  | read (claim : ReadClaim) (discard : Bool)
  | write (claim : WriteClaim)
  deriving DecidableEq, Repr

/-- The Frame Store Arbiter (R41). -/
structure Arbiter where
  access : Option Access
  readWaiting : Option ReadClaim
  writeWaiting : Option WriteClaim
  lastServed : Claimant
  deriving DecidableEq, Repr

/-! ## Job Store (01) -/

/-- What a job exposes (R4, R5). -/
inductive Work where
  | expose (planes : Rgb Selector) (curve : Nat) (release : Bool)
  | flash (curve : Nat) (values : Rgb Nat)
  | blank
  deriving DecidableEq, Repr

/-- How a job ended (R5, R16). -/
inductive JobOutcome where
  | complete | cancelled | flushed
  deriving DecidableEq, Repr

/-- The first and last position of a job; present together (R6, R191). -/
structure Positions where
  first : Nat
  last : Nat
  deriving DecidableEq, Repr

/-- A job record (R5). -/
structure Job where
  tag : Nat
  work : Work
  repeatCount : Nat
  framesDone : Nat
  spoiled : Nat
  suspect : Nat
  saturated : Nat
  positions : Option Positions
  outcome : Option JobOutcome
  deriving DecidableEq, Repr

/-- The Job Store (R1 to R3): the LIVE slots in acceptance order, head first, and the RESULT slots in
end order. The slots in neither list are EMPTY. -/
structure JobStore where
  live : List Job
  results : List Job
  deriving DecidableEq, Repr

/-! ## Curve Memory and drive (03) -/

/-- A drive entry (R48). -/
structure DriveEntry where
  level : Nat
  duty : Nat
  deriving DecidableEq, Repr

/-- A curve set that is LOADING (`ready = false`) or READY (R47). A channel's cursor is the number of
its entries. An EMPTY set is not listed. -/
structure CurveSet where
  ready : Bool
  entries : Rgb (List DriveEntry)
  use : Nat
  deriving DecidableEq, Repr

/-- Pulse placement (R60). -/
inductive Placement where
  | leading | centered | trailing
  deriving DecidableEq, Repr

/-- How one pixel is driven (R58, R60): the level word, the duty and the first lit sub-period, and
whether the trimmed level was clamped. A dark pixel has level 0 and duty 0. -/
structure PixelDrive where
  level : Nat
  duty : Nat
  start : Nat
  clamped : Bool
  deriving DecidableEq, Repr

/-- The pixels of one line on one channel: alike (FLASH, R102) or one by one (EXPOSE). -/
inductive PixelRow where
  | alike (drive : PixelDrive)
  | each (drives : List PixelDrive)
  deriving DecidableEq, Repr

/-- The drive laid out at a facet sync of an exposing frame (R100, R101, R149): the line, the facet,
the active-start delay in ns, the level of the reference pulse on each channel (absent on a line with
no pulse), and the pixels. `markBefore` is the saturation mark as it stood before this line. -/
structure LineDrive where
  line : Nat
  facet : Nat
  delay : Nat
  pulse : Option (Rgb Nat)
  pixels : Rgb PixelRow
  markBefore : Bool
  deriving DecidableEq, Repr

/-- The three outputs of a channel to its modulator driver: the 12-bit level word, the on-time strobe and
the blanking output, each true where it is asserted (R158). -/
structure ChannelOutput where
  level : Nat
  strobe : Bool
  blanking : Bool
  deriving DecidableEq, Repr

/-! ## Run Controller (04) -/

inductive RunState where
  | stopped | running | pausing | paused
  deriving DecidableEq, Repr

inductive RunMode where
  | endOnEmpty | holdOnEmpty
  deriving DecidableEq, Repr

/-- The pending stop, weakest first (R75). -/
inductive StopMode where
  | none | atJob | atFrame | now
  deriving DecidableEq, Repr

/-- The halt reasons (R74). -/
inductive HaltReason where
  | stopRequest | queueEmpty | underrun | dataLate | powerFault | monitorLost | scanLost
  | laserFault | interlock | transportFault | endOfReel | softReset
  deriving DecidableEq, Repr

/-- The halt record (R65, R72). -/
structure HaltRecord where
  reason : HaltReason
  position : Nat
  head : Option Nat
  deriving DecidableEq, Repr

/-- The Run Controller (R65). -/
structure Run where
  state : RunState
  mode : RunMode
  pendingStop : StopMode
  leadIn : Nat
  halt : Option HaltRecord
  deriving DecidableEq, Repr

/-! ## Frame Sequencer (05) -/

inductive Phase where
  | between | preparing | exposing
  deriving DecidableEq, Repr

/-- One line of one plane, as copied from the frame store (R88). -/
structure Row where
  sel : Selector
  words : List Half
  deriving DecidableEq, Repr

/-- A line set (R88). -/
structure LineSet where
  line : Nat
  rows : List Row
  deriving DecidableEq, Repr

/-- The set in assembly (R87): its line, the rows read so far, and the planes still to be read, the
first of them being the one whose read is claimed. -/
structure Assembly where
  line : Nat
  rows : List Row
  rest : List Selector
  deriving DecidableEq, Repr

/-- The Frame Sequencer (R87). The lead-in timer holds the duration it was started with. -/
structure Sequencer where
  phase : Phase
  cursor : Nat
  assembly : Option Assembly
  queue : List LineSet
  lineCounter : Nat
  saturation : Bool
  suspect : Option Channel
  leadTimer : Option Nat
  deriving DecidableEq, Repr

/-! ## Transport Controller (06) -/

/-- The reel context (R115). -/
structure Reel where
  capacity : Nat
  perforations : Nat
  lines : Nat
  width : Nat
  offset : Nat
  deriving DecidableEq, Repr

/-- The fault causes of the transport (R119). -/
inductive TransportCause where
  | filmLost | tension | perfTimeout | gate
  deriving DecidableEq, Repr

/-- The transport state, with the fault cause in FAULT (R119). -/
inductive TransportState where
  | empty | opened | advancing | settling | registered
  | fault (cause : TransportCause)
  deriving DecidableEq, Repr

/-- The gate frame state (R127). -/
inductive Gate where
  | fresh | used
  deriving DecidableEq, Repr

/-- What a settle ends: a pull-down, or a Register Gate with the frame state it named (R125). -/
inductive SettleEnds where
  | pullDown
  | registerGate (gate : Gate)
  deriving DecidableEq, Repr

/-- An Advance Frames series: the count asked for and the pull-downs registered so far (R130, R131). -/
structure Series where
  count : Nat
  done : Nat
  deriving DecidableEq, Repr

/-- The Transport Controller (R119, R126, R127, R130, R132). A timer holds the duration it was started
with. -/
structure Transport where
  state : TransportState
  perfs : Nat
  pullDownTimer : Option Nat
  settleTimer : Option Nat
  settleEnds : Option SettleEnds
  position : Nat
  gate : Gate
  series : Option Series
  timeout : Nat
  settle : Nat
  deriving DecidableEq, Repr

/-- One value for each machine-side input line that has a level (R120). -/
structure Lines where
  filmPresent : Bool
  tensionOk : Bool
  gateClosed : Bool
  endSensor : Bool
  interlock : Bool
  laserReady : Rgb Bool
  deriving DecidableEq, Repr

/-- The input lines: levels and sticky changed flags (R120). -/
structure Pins where
  levels : Lines
  changed : Lines
  deriving DecidableEq, Repr

/-! ## Scan Timing Unit (07) -/

/-- The scan geometry (R137). -/
structure Geometry where
  facets : Nat
  period : Nat
  pixelPeriod : Nat
  tolerance : Nat
  missLimit : Nat
  revolutions : Nat
  deriving DecidableEq, Repr

/-- Why the lock was lost (R141). -/
inductive LossCause where
  | period | facetCount | noSignal
  deriving DecidableEq, Repr

/-- The scan state, with the loss cause in LOST (R141). -/
inductive ScanState where
  | unlocked | calibrating | locked
  | lost (cause : LossCause)
  deriving DecidableEq, Repr

/-- The two deadlines of a calibration (R145). -/
inductive Deadline where
  | index | sos
  deriving DecidableEq, Repr

/-- The last calibration outcome, with the fields its outcome has (R144). -/
inductive CalOutcome where
  | none
  | locked (completed : Nat)
  | facetCount (completed revolution pulses : Nat)
  | outOfRange (completed facet period : Nat)
  | noSignal (completed : Nat) (deadline : Deadline)
  deriving DecidableEq, Repr

/-- The first revolution whose count differed from F (R143). -/
structure CountFault where
  revolution : Nat
  pulses : Nat
  deriving DecidableEq, Repr

/-- The first period outside the range (R143). -/
structure RangeFault where
  revolution : Nat
  facet : Nat
  period : Nat
  deriving DecidableEq, Repr

/-- A calibration in progress (R142, R143, R145). `revolution` is 0 while the opening INDEX is
awaited. The deadlines hold the durations they were started with, in ns. -/
structure Calibration where
  revolution : Nat
  sosSeen : Bool
  sums : List Nat
  countFault : Option CountFault
  rangeFault : Option RangeFault
  completed : Nat
  indexDeadline : Nat
  sosGap : Nat
  deriving DecidableEq, Repr

/-- The Scan Timing Unit (R136, R137, R139, R141, R147). -/
structure Scan where
  geometry : Geometry
  captured : Option (List Nat)
  corrections : List Int
  state : ScanState
  misses : Nat
  facetCount : Nat
  outcome : CalOutcome
  calibration : Option Calibration
  noSignal : Option Nat
  sosSeen : Bool
  period : Option Nat
  deriving DecidableEq, Repr

/-! ## Laser Drive Unit and Power Monitor (08) -/

/-- The state of a laser channel (R152). -/
inductive LaserState where
  | off | warming | ready | fault
  deriving DecidableEq, Repr

/-- Target and windows of one channel (R161, R166). -/
structure Target where
  target : Nat
  soft : Nat
  hard : Nat
  deriving DecidableEq, Repr

/-- The power targets once set (R166). -/
structure PowerTargets where
  channels : Rgb Target
  hardCount : Nat
  osr : Nat
  deriving DecidableEq, Repr

/-- The six sticky flags of a channel (R161). -/
structure MonitorFlags where
  softHigh : Bool
  softLow : Bool
  hardHigh : Bool
  hardLow : Bool
  clockLost : Bool
  trimLimit : Bool
  deriving DecidableEq, Repr

/-- One channel of the Power Monitor (R159 to R165). `lost` is the bit clock's present state;
`expecting` says that the reference pulse of the present line may still give a reading. -/
structure MonitorChannel where
  trim : Nat
  latest : Nat
  isFresh : Bool
  flags : MonitorFlags
  breaches : Nat
  sum : Nat
  count : Nat
  mean : Nat
  valid : Bool
  applied : Bool
  lost : Bool
  expecting : Bool
  deriving DecidableEq, Repr

/-- The Power Monitor; `targets` is `none` while they are unset (R166). -/
structure Monitor where
  targets : Option PowerTargets
  channels : Rgb MonitorChannel
  deriving DecidableEq, Repr

/-! ## Spoil Log (09) -/

/-- The kinds of entry (R170). -/
inductive SpoilKind where
  | spoiled | suspect
  deriving DecidableEq, Repr

/-- The causes of an entry (R170). -/
inductive SpoilCause where
  | underrun | powerFault | scanLost | laserFault | interlock | transportFault | stopNow
  | softReset | monitorLost
  deriving DecidableEq, Repr

/-- A Spoil Log entry (R170). -/
structure SpoilEntry where
  kind : SpoilKind
  position : Nat
  tag : Nat
  cause : SpoilCause
  line : Option Nat
  channel : Option Channel
  deriving DecidableEq, Repr

/-- The Spoil Log (R170): entries oldest first, and how many of the newest are not yet notified. -/
structure SpoilLog where
  entries : List SpoilEntry
  unsent : Nat
  deriving DecidableEq, Repr

/-! ## Link Interface (10) -/

/-- The refusal codes (R182). -/
inductive RefusalCode where
  | unknownType | badLength | badValue | busy | noReel | reelOpen | full | duplicateTag | noSuchJob
  | notDefined | alreadyDefined | inUse | overlap | bounds | outOfOrder | notReady | notMonotonic
  | logFull | logNotEmpty | endOfReel | interlock | transportFault
  deriving DecidableEq, Repr

/-- A reply (R182): ACCEPT with the bytes of its items, or REFUSE with code and detail. -/
inductive Reply where
  | accept (items : List Byte)
  | refuse (code : RefusalCode) (detail : Nat)
  deriving DecidableEq, Repr

/-- Where the current request stands (R180, R183): with the block that owns its type, waiting for work
outside the link, with its reply pending, or with its reply being sent. -/
inductive Stage where
  | handed
  | waiting
  | replyPending (reply : Reply)
  | replySending
  deriving DecidableEq, Repr

/-- The current request (R180). -/
structure Current where
  msg : Message
  stage : Stage
  deriving DecidableEq, Repr

/-- The receiver (R177 to R179): hunting for a start byte, or the part of a message received so far.
`left` counts the payload bytes to come; `got` holds payload bytes newest first. -/
inductive Receiver where
  | hunting
  | atType
  | atTag (type : Byte)
  | atLength (type tag : Byte)
  | atLength2 (type tag lo : Byte)
  | atPayload (type tag : Byte) (left : Nat) (got : List Byte)
  | atCheck (msg : Message)
  | atCheck2 (msg : Message) (lo : Byte)
  deriving DecidableEq, Repr

/-- The notice classes that coalesce behind a flag (R185). -/
inductive FlagClass where
  | halt | scan | monitor | lines
  deriving DecidableEq, Repr

/-- What the transmitter is sending (R184, R185). `again`: the class was raised since its notice was
begun. `removed`: Take Spoil Entries removed the entry since its notice was begun (R172). -/
inductive Sending where
  | reply (reply : Reply)
  | flag (cls : FlagClass) (again : Bool)
  | spoil (removed : Bool)
  | jobResult
  deriving DecidableEq, Repr

/-- A message in transmission: its contents as they stood when it was begun (R184). -/
structure Transmission where
  sending : Sending
  msg : Message
  deriving DecidableEq, Repr

/-- The pending flags of the four flag classes (R185). -/
structure NoticeFlags where
  halt : Bool
  scan : Bool
  monitor : Bool
  lines : Bool
  deriving DecidableEq, Repr

/-- The notice mask (R186). -/
structure NoticeMask where
  scan : Bool
  monitor : Bool
  lines : Bool
  deriving DecidableEq, Repr

/-- The link flags (R179). -/
structure LinkFlags where
  crc : Bool
  framing : Bool
  overrun : Bool
  deriving DecidableEq, Repr

/-- The link rate in Mbit/s (R176). -/
inductive LinkRate where
  | mbit50 | mbit100 | mbit200
  deriving DecidableEq, Repr

/-- The Link Interface (R176 to R186). `buffer` holds the complete messages, oldest first; a message in
reception takes a place too. `hrdy` is the level the transmitter saw last. -/
structure Link where
  rate : LinkRate
  receiver : Receiver
  buffer : List Message
  current : Option Current
  transmitter : Option Transmission
  notices : NoticeFlags
  mask : NoticeMask
  flags : LinkFlags
  hrdy : Bool
  deriving DecidableEq, Repr

/-! ## The whole machine -/

/-- The PX-340. `resetPin` is set while the RESET pin is asserted (R188). `freeEpoch` counts the hardware
resets, on which unspecified contents depend (log 12); `pending` is the queue of commands (log 1). -/
structure State where
  resetPin : Bool
  link : Link
  jobs : JobStore
  planes : Table Plane
  store : Memory
  arbiter : Arbiter
  curves : Table CurveSet
  placement : Placement
  run : Run
  seq : Sequencer
  reel : Option Reel
  transport : Transport
  pins : Pins
  scan : Scan
  lasers : Rgb LaserState
  drive : Option LineDrive
  monitor : Monitor
  log : SpoilLog
  freeEpoch : Nat
  pending : List Instr
  deriving DecidableEq, Repr

/-- The part has no condition that stops it: every command is answered with a next state, and what a
request asks in vain is refused in its reply (R182). No command raises a fault. -/
inductive Fault where
  deriving DecidableEq, Repr

/-- A command without a meaning. `notModelled` is raised by no command of this model: every row of the
opcode table has its meaning. It would be safe. -/
inductive Refusal where
  | notModelled (mnemonic : String)
  deriving DecidableEq, Repr

/-! ## Reset -/

/-- All eight lines deasserted. -/
def Lines.none : Lines := ⟨false, false, false, false, false, Rgb.same false⟩

/-- R63, R85, R113, R134, R150, R168, R175: the blocks' values after hardware reset. -/
def Run.reset : Run := ⟨.stopped, .endOnEmpty, .none, 2000, Option.none⟩
def Sequencer.reset : Sequencer := ⟨.between, 0, Option.none, [], 0, false, Option.none, Option.none⟩
def Arbiter.reset : Arbiter := ⟨Option.none, Option.none, Option.none, .planeWriter⟩
/-- R134: OPEN if FILM_PRESENT is asserted, EMPTY otherwise. -/
def Transport.reset (film : Bool) : Transport :=
  ⟨if film then .opened else .empty, 0, Option.none, Option.none, Option.none, 0, .used, Option.none, 500, 20⟩
def Geometry.reset : Geometry := ⟨8, 50000, 10000, 500, 3, 4⟩
def Scan.reset : Scan :=
  ⟨Geometry.reset, Option.none, [0, 0, 0, 0, 0, 0, 0, 0], .unlocked, 0, 0, .none, Option.none, Option.none,
    false, Option.none⟩
def MonitorFlags.clear : MonitorFlags := ⟨false, false, false, false, false, false⟩
def MonitorChannel.reset : MonitorChannel :=
  ⟨4096, 0, false, MonitorFlags.clear, 0, 0, 0, 0, false, false, false, false⟩
def Monitor.reset : Monitor := ⟨Option.none, Rgb.same MonitorChannel.reset⟩
/-- R188: hunting, both places free, no request, no notice, mask 07h, link flags clear. -/
def Link.reset (rate : LinkRate) (hrdy : Bool) : Link :=
  ⟨rate, .hunting, [], Option.none, Option.none, ⟨false, false, false, false⟩, ⟨true, true, true⟩,
    ⟨false, false, false⟩, hrdy⟩

/-- Every block in its reset state, at given line levels (R22, R45, R63, R85, R113, R134, R150, R168,
R175, R188), with the RESET pin at `resetPin`. -/
def State.afterReset (resetPin : Bool) (rate : LinkRate) (hrdy : Bool) (levels : Lines) (epoch : Nat)
    (pending : List Instr) : State where
  resetPin := resetPin
  link := Link.reset rate hrdy
  jobs := ⟨[], []⟩
  planes := []
  store := []
  arbiter := Arbiter.reset
  curves := []
  placement := .centered
  run := Run.reset
  seq := Sequencer.reset
  reel := Option.none
  transport := Transport.reset levels.filmPresent
  pins := ⟨levels, Lines.none⟩
  scan := Scan.reset
  lasers := Rgb.same .off
  drive := Option.none
  monitor := Monitor.reset
  log := ⟨[], 0⟩
  freeEpoch := epoch
  pending := pending

/-- The machine right after hardware reset, with the RESET pin released (R188; log 9). The input lines are
all deasserted, both straps low and HRDY deasserted: DESIGN CHOICE, the manual gives no levels (log 7,
log 8). -/
def State.reset : State := State.afterReset false .mbit50 false Lines.none 0 []

end Sys2Proof.Machine
end

