-- ==== Sys2Proof/Machine/Flags.lean ====
section
/-! DEFINITION. Every flag of the PX-340: the pending flags of the notice classes (R185, R186), the
monitor flags and the windows that set them (R161, R162), the changed flags of the input lines (R120)
and the link flags (R179). Also the small operations on values held once for each channel. -/

namespace Sys2Proof

/-! ## Values held once for each channel -/

/-- The channel's number on the wire: 0 red, 1 green, 2 blue (R51, R192). -/
def Channel.code : Channel → Nat
  | .red => 0
  | .green => 1
  | .blue => 2

/-- The value of one channel. -/
def Rgb.get {α : Type} (x : Rgb α) : Channel → α
  | .red => x.red
  | .green => x.green
  | .blue => x.blue

/-- The values with one channel's replaced. -/
def Rgb.set {α : Type} (x : Rgb α) (ch : Channel) (v : α) : Rgb α :=
  match ch with
  | .red => { x with red := v }
  | .green => { x with green := v }
  | .blue => { x with blue := v }

/-- The same function on every channel. -/
def Rgb.map {α β : Type} (f : α → β) (x : Rgb α) : Rgb β := ⟨f x.red, f x.green, f x.blue⟩

/-- A function of two values on every channel. -/
def Rgb.zip {α β γ : Type} (f : α → β → γ) (x : Rgb α) (y : Rgb β) : Rgb γ :=
  ⟨f x.red y.red, f x.green y.green, f x.blue y.blue⟩

/-- The values in the order red, green, blue (00_scope.md section 4). -/
def Rgb.toList {α : Type} (x : Rgb α) : List α := [x.red, x.green, x.blue]

/-- Whether every channel has a property. -/
def Rgb.all {α : Type} (p : α → Bool) (x : Rgb α) : Bool := p x.red && p x.green && p x.blue

/-- Whether some channel has a property. -/
def Rgb.any {α : Type} (p : α → Bool) (x : Rgb α) : Bool := p x.red || p x.green || p x.blue

/-- The first channel with a property, in the order red, green, blue. -/
def Rgb.first {α : Type} (p : α → Bool) (x : Rgb α) : Option Channel :=
  if p x.red then some .red else if p x.green then some .green else if p x.blue then some .blue else none

end Sys2Proof

namespace Sys2Proof.Machine

/-! ## Pending flags of the notice classes (R185, R186) -/

/-- The pending flag of a class. -/
def NoticeFlags.get (f : NoticeFlags) : FlagClass → Bool
  | .halt => f.halt
  | .scan => f.scan
  | .monitor => f.monitor
  | .lines => f.lines

/-- The flags with one class's replaced. -/
def NoticeFlags.set (f : NoticeFlags) (c : FlagClass) (b : Bool) : NoticeFlags :=
  match c with
  | .halt => { f with halt := b }
  | .scan => { f with scan := b }
  | .monitor => { f with monitor := b }
  | .lines => { f with lines := b }

/-- Whether a class is enabled; HALT always is (R186). -/
def NoticeMask.enables (m : NoticeMask) : FlagClass → Bool
  | .halt => true
  | .scan => m.scan
  | .monitor => m.monitor
  | .lines => m.lines

/-- R185: an event raised a class while the class's notice is being sent. -/
def Transmission.noteRaise (c : FlagClass) (t : Transmission) : Transmission :=
  match t.sending with
  | .flag c' again => { t with sending := .flag c' (again || decide (c' = c)) }
  | .reply _ | .spoil _ | .jobResult => t

/-- R185: an event raises a class. A disabled class raises no pending flag (R186). -/
def Link.raise (c : FlagClass) (l : Link) : Link :=
  if l.mask.enables c then
    { l with notices := l.notices.set c true, transmitter := l.transmitter.map (Transmission.noteRaise c) }
  else l

/-- R185, R186: an event raises a class. -/
def State.raise (c : FlagClass) (s : State) : State := { s with link := s.link.raise c }

/-- R186: a class disabled while its flag is set has the flag cleared; a notice of it that is being
sent is completed and leaves no flag behind. -/
def Link.lower (c : FlagClass) (l : Link) : Link :=
  { l with
    notices := l.notices.set c false
    transmitter := l.transmitter.map fun t =>
      match t.sending with
      | .flag c' again => { t with sending := .flag c' (again && !decide (c' = c)) }
      | .reply _ | .spoil _ | .jobResult => t }

/-! ## Link flags (R179) -/

/-- The link flags of R179. -/
inductive LinkFlag where
  | crc | framing | overrun
  deriving DecidableEq, Repr

/-- R179: a discard sets its link flag, and the receiver returns to hunting unless the message never
took a place. -/
def State.setLinkFlag (f : LinkFlag) (s : State) : State :=
  let fl := s.link.flags
  { s with link := { s.link with flags :=
      match f with
      | .crc => { fl with crc := true }
      | .framing => { fl with framing := true }
      | .overrun => { fl with overrun := true } } }

/-! ## Changed flags of the input lines (R120) -/

/-- A flag for each line, from two values for each line. -/
def Lines.zip (f : Bool → Bool → Bool) (x y : Lines) : Lines where
  filmPresent := f x.filmPresent y.filmPresent
  tensionOk := f x.tensionOk y.tensionOk
  gateClosed := f x.gateClosed y.gateClosed
  endSensor := f x.endSensor y.endSensor
  interlock := f x.interlock y.interlock
  laserReady := Rgb.zip f x.laserReady y.laserReady

/-- R120: the lines take new levels. Each line that changes has its changed flag set; a change raises
LINES. -/
def State.setLevels (levels : Lines) (s : State) : State :=
  if levels = s.pins.levels then s
  else
    State.raise .lines
      { s with pins := ⟨levels, Lines.zip (· || ·) s.pins.changed (Lines.zip xor s.pins.levels levels)⟩ }

/-! ## Monitor flags (R161, R162) -/

/-- R161: the reading lies outside the window `w` of target `t`. -/
def outsideWindow (r t w : Nat) : Bool := decide (t * w < (max r t - min r t) * 4096)

/-- Flags set in either. -/
def MonitorFlags.union (a b : MonitorFlags) : MonitorFlags :=
  ⟨a.softHigh || b.softHigh, a.softLow || b.softLow, a.hardHigh || b.hardHigh, a.hardLow || b.hardLow,
    a.clockLost || b.clockLost, a.trimLimit || b.trimLimit⟩

/-- R161: the flags one reading sets. -/
def judgeReading (r : Nat) (t : Target) : MonitorFlags :=
  let soft := outsideWindow r t.target t.soft
  let hard := outsideWindow r t.target t.hard
  let high := decide (t.target < r)
  let low := decide (r < t.target)
  ⟨soft && high, soft && low, hard && high, hard && low, false, false⟩

/-- One channel of the monitor replaced. -/
def State.setChannel (ch : Channel) (c : MonitorChannel) (s : State) : State :=
  { s with monitor := { s.monitor with channels := s.monitor.channels.set ch c } }

/-- R161: flags are set on a channel; any flag set from clear raises MONITOR. -/
def State.setMonitorFlags (ch : Channel) (f : MonitorFlags) (s : State) : State :=
  let c := s.monitor.channels.get ch
  let f' := c.flags.union f
  let s' := s.setChannel ch { c with flags := f' }
  if f' = c.flags then s' else s'.raise .monitor

/-- R162: the flags Get Status leaves set: those whose condition is still present. -/
def MonitorFlags.stillPresent (c : MonitorChannel) (t : Target) : MonitorFlags :=
  let soft := outsideWindow c.latest t.target t.soft
  let hard := outsideWindow c.latest t.target t.hard
  ⟨c.flags.softHigh && soft, c.flags.softLow && soft, c.flags.hardHigh && hard, c.flags.hardLow && hard,
    c.flags.clockLost && c.lost, false⟩

/-- R162 while the targets are unset: no window exists, and no window flag has been set since hardware
reset (R168); CLOCK_LOST and TRIM_LIMIT are cleared as with targets. -/
def MonitorFlags.stillPresentUnset (c : MonitorChannel) : MonitorFlags :=
  ⟨c.flags.softHigh, c.flags.softLow, c.flags.hardHigh, c.flags.hardLow, c.flags.clockLost && c.lost, false⟩

/-- R162: the clearing of the eighteen flags by Get Status. It raises no notice (R187). -/
def Monitor.clearReported (m : Monitor) : Monitor :=
  { m with channels :=
      match m.targets with
      | some p => Rgb.zip (fun c t => { c with flags := MonitorFlags.stillPresent c t }) m.channels p.channels
      | none => m.channels.map fun c => { c with flags := MonitorFlags.stillPresentUnset c } }

/-- R169: Soft Reset clears every flag, except CLOCK_LOST on a channel whose clock is lost. -/
def MonitorFlags.afterSoftReset (c : MonitorChannel) : MonitorFlags :=
  { MonitorFlags.clear with clockLost := c.flags.clockLost && c.lost }

end Sys2Proof.Machine
end

