-- ==== Sys2Proof/Machine/Operands.lean ====
section
/-! DEFINITION. Operand forms: what the wire values of a request name (selectors, masks, modes,
counts), and the codes and byte layouts of the records that replies and notices carry (R190 to
R193). -/

namespace Sys2Proof.Machine

/-! ## Selectors (00_scope.md section 4, R25) -/

/-- The selector as it stands on the wire, as a number: index in the low 8 bits, table in the top
bit. -/
def Selector.wire : Selector → Nat
  | .global i => i
  | .reel i => 0x8000 + i

/-- R25: the selector a wire value names; `none` where it is malformed. -/
def Selector.ofWire (w : Half) : Option Selector :=
  let index := w.toNat % 256
  let second := w.toNat / 256
  if second = 0 then
    if index < Config.globalPlanes then some (.global index) else none
  else if second = 0x80 then
    if index < Config.reelPlanes then some (.reel index) else none
  else none

/-- Whether the selector names a descriptor of the reel table. -/
def Selector.isReel : Selector → Bool
  | .global _ => false
  | .reel _ => true

/-- The distinct planes of three selectors, in the order red, green, blue, each once (R88). -/
def Rgb.distinct (p : Rgb Selector) : List Selector :=
  p.red :: ((if p.green = p.red then [] else [p.green]) ++
    (if p.blue = p.red ∨ p.blue = p.green then [] else [p.blue]))

/-! ## Modes, masks, states named by one byte -/

/-- R67: the run modes. -/
def runModeOf (b : Byte) : Option RunMode :=
  match b.toNat with
  | 0 => some .endOnEmpty
  | 1 => some .holdOnEmpty
  | _ => none

/-- R75: the stop modes, coded 1, 2 and 3. -/
def stopModeOf (b : Byte) : Option StopMode :=
  match b.toNat with
  | 1 => some .atJob
  | 2 => some .atFrame
  | 3 => some .now
  | _ => none

/-- R61: the pulse placements, coded from 0 in the order of R60. -/
def placementOf (b : Byte) : Option Placement :=
  match b.toNat with
  | 0 => some .leading
  | 1 => some .centered
  | 2 => some .trailing
  | _ => none

/-- R128: the gate frame states, coded as in the status record (R193). -/
def gateOf (b : Byte) : Option Gate :=
  match b.toNat with
  | 0 => some .fresh
  | 1 => some .used
  | _ => none

/-- R51: the channels, coded 0 red, 1 green, 2 blue. -/
def channelOf (b : Byte) : Option Channel :=
  match b.toNat with
  | 0 => some .red
  | 1 => some .green
  | 2 => some .blue
  | _ => none

/-- R153: a channel mask: bit 0 red, bit 1 green, bit 2 blue; `none` where it is 0 or has a higher
bit set. -/
def channelMaskOf (b : Byte) : Option (Rgb Bool) :=
  if b.toNat = 0 ∨ 8 ≤ b.toNat then none else some ⟨b.getLsbD 0, b.getLsbD 1, b.getLsbD 2⟩

/-- R186: a notice mask: bit 0 SCAN, bit 1 MONITOR, bit 2 LINES; `none` where a higher bit is set. -/
def noticeMaskOf (b : Byte) : Option NoticeMask :=
  if 8 ≤ b.toNat then none else some ⟨b.getLsbD 0, b.getLsbD 1, b.getLsbD 2⟩

/-- R140, R190: a facet correction, two's complement. -/
def correctionOf (h : Half) : Int := h.toInt

/-- R67, R83: a lead-in time, with 0 standing for the default; `none` outside 10..10,000. -/
def leadInOf (h : Half) : Option Nat :=
  if h.toNat = 0 then some Config.defaultLeadIn
  else if 10 ≤ h.toNat ∧ h.toNat ≤ 10000 then some h.toNat
  else none

/-! ## Codes (R182, R190 to R193) -/

/-- R182: the refusal codes. -/
def RefusalCode.code : RefusalCode → Nat
  | .unknownType => 1 | .badLength => 2 | .badValue => 3 | .busy => 4 | .noReel => 5 | .reelOpen => 6
  | .full => 7 | .duplicateTag => 8 | .noSuchJob => 9 | .notDefined => 10 | .alreadyDefined => 11
  | .inUse => 12 | .overlap => 13 | .bounds => 14 | .outOfOrder => 15 | .notReady => 16
  | .notMonotonic => 17 | .logFull => 18 | .logNotEmpty => 19 | .endOfReel => 20 | .interlock => 21
  | .transportFault => 22

/-- R193. -/
def RunState.code : RunState → Nat
  | .stopped => 0 | .running => 1 | .pausing => 2 | .paused => 3

/-- R193. -/
def Phase.code : Phase → Nat
  | .between => 0 | .preparing => 1 | .exposing => 2

/-- R193. -/
def RunMode.code : RunMode → Nat
  | .endOnEmpty => 0 | .holdOnEmpty => 1

/-- R193. -/
def StopMode.code : StopMode → Nat
  | .none => 0 | .atJob => 1 | .atFrame => 2 | .now => 3

/-- R192. -/
def HaltReason.code : HaltReason → Nat
  | .stopRequest => 1 | .queueEmpty => 2 | .underrun => 3 | .dataLate => 4 | .powerFault => 5
  | .monitorLost => 6 | .scanLost => 7 | .laserFault => 8 | .interlock => 9 | .transportFault => 10
  | .endOfReel => 11 | .softReset => 12

/-- R192. -/
def SpoilKind.code : SpoilKind → Nat
  | .spoiled => 0 | .suspect => 1

/-- R192. -/
def SpoilCause.code : SpoilCause → Nat
  | .underrun => 1 | .powerFault => 2 | .scanLost => 3 | .laserFault => 4 | .interlock => 5
  | .transportFault => 6 | .stopNow => 7 | .softReset => 8 | .monitorLost => 9

/-- R191. -/
def JobOutcome.code : JobOutcome → Nat
  | .complete => 1 | .cancelled => 2 | .flushed => 3

/-- R190. -/
def Work.kindCode : Work → Nat
  | .expose .. => 0 | .flash .. => 1 | .blank => 2

/-- R193. -/
def Gate.code : Gate → Nat
  | .fresh => 0 | .used => 1

/-- R193. -/
def TransportState.code : TransportState → Nat
  | .empty => 0 | .opened => 1 | .advancing => 2 | .settling => 3 | .registered => 4 | .fault _ => 5

/-- R119. -/
def TransportCause.code : TransportCause → Nat
  | .filmLost => 1 | .tension => 2 | .perfTimeout => 3 | .gate => 4

/-- R119: the fault cause in the status record; 0 outside FAULT (log 28). -/
def TransportState.causeCode : TransportState → Nat
  | .fault c => c.code
  | .empty | .opened | .advancing | .settling | .registered => 0

/-- R185. -/
def ScanState.code : ScanState → Nat
  | .unlocked => 0 | .calibrating => 1 | .locked => 2 | .lost _ => 3

/-- R141. -/
def LossCause.code : LossCause → Nat
  | .period => 1 | .facetCount => 2 | .noSignal => 3

/-- R141: the loss cause in reports; 0 outside LOST (log 28). -/
def ScanState.causeCode : ScanState → Nat
  | .lost c => c.code
  | .unlocked | .calibrating | .locked => 0

/-- R185. -/
def Deadline.code : Deadline → Nat
  | .index => 1 | .sos => 2

/-- R193. -/
def LaserState.code : LaserState → Nat
  | .off => 0 | .warming => 1 | .ready => 2 | .fault => 3

/-- R185: the class bytes. -/
def FlagClass.code : FlagClass → Nat
  | .halt => 1 | .scan => 4 | .monitor => 5 | .lines => 6

/-- R190: UNDEFINED, FILLING, FULL coded from 0 in the order of R26. FULL exactly when the fill mark
equals the limit. -/
def planeStateCode : Option Plane → Nat
  | none => 0
  | some p => if p.fill = p.limit then 2 else 1

/-- R190: EMPTY, LOADING, READY coded from 0 in the order of R47. -/
def curveStateCode : Option CurveSet → Nat
  | none => 0
  | some c => if c.ready then 2 else 1

/-- A bit of a byte, as a number. -/
def bitAt (b : Bool) (n : Nat) : Nat := if b then 2 ^ n else 0

/-! ## Records -/

/-- Selectors of a job record; zeros where absent (R190). -/
def Work.selectorBytes : Work → List Byte
  | .expose p _ _ => u16 p.red.wire ++ u16 p.green.wire ++ u16 p.blue.wire
  | .flash .. | .blank => [0, 0, 0, 0, 0, 0]

/-- The curve set a job names. -/
def Work.curve : Work → Option Nat
  | .expose _ c _ => some c
  | .flash c _ => some c
  | .blank => none

/-- The distinct planes a job names. -/
def Work.planes : Work → List Selector
  | .expose p _ _ => Rgb.distinct p
  | .flash .. | .blank => []

/-- The release flag, clear where absent. -/
def Work.release : Work → Bool
  | .expose _ _ r => r
  | .flash .. | .blank => false

/-- Flash values of a job record; zeros where absent. -/
def Work.flashBytes : Work → List Byte
  | .flash _ v => u16 v.red ++ u16 v.green ++ u16 v.blue
  | .expose .. | .blank => [0, 0, 0, 0, 0, 0]

/-- R5, R191: presence bits 0 to 4 of a job record. -/
def Work.presence : Work → Nat
  | .expose .. => 1 + 2 + 8 + 16
  | .flash .. => 2 + 4 + 16
  | .blank => 0

/-- The job record, 30 bytes (R191). The saturated count is absent from a BLANK record, and sent as 0 (R5, R190). -/
def Job.record (j : Job) : List Byte :=
  u16 j.tag ++ u8 j.work.kindCode ++
  u8 (j.work.presence + bitAt j.positions.isSome 5 + bitAt j.outcome.isSome 6) ++
  j.work.selectorBytes ++ u8 (j.work.curve.getD 0) ++ j.work.flashBytes ++
  u8 j.repeatCount ++ u8 (bitAt j.work.release 0) ++ u16 j.framesDone ++ u8 j.spoiled ++ u8 j.suspect ++
  u16 (if j.work = .blank then 0 else j.saturated) ++ u16 ((j.positions.map Positions.first).getD 0) ++
  u16 ((j.positions.map Positions.last).getD 0) ++ u8 ((j.outcome.map JobOutcome.code).getD 0)

/-- A Spoil Log entry, 10 bytes (R192). -/
def SpoilEntry.record (e : SpoilEntry) : List Byte :=
  u8 e.kind.code ++ u8 e.cause.code ++ u8 (bitAt e.line.isSome 0 + bitAt e.channel.isSome 1) ++
  u16 e.position ++ u16 e.tag ++ u16 (e.line.getD 0) ++ u8 ((e.channel.map Channel.code).getD 0)

/-- The halt record, 6 bytes (R192). -/
def haltRecordBytes : Option HaltRecord → List Byte
  | none => [0, 0, 0, 0, 0, 0]
  | some h => u8 1 ++ u8 h.reason.code ++ u16 h.position ++ u16 (h.head.getD 0)

/-- A channel's six monitor flags in one byte (R193). -/
def MonitorFlags.byte (f : MonitorFlags) : List Byte :=
  u8 (bitAt f.softHigh 0 + bitAt f.softLow 1 + bitAt f.hardHigh 2 + bitAt f.hardLow 3 +
    bitAt f.clockLost 4 + bitAt f.trimLimit 5)

/-- The MONITOR content: offsets 21 to 29 of the status record (R193). -/
def Monitor.content (m : Monitor) : List Byte :=
  m.channels.toList.flatMap (fun c => c.flags.byte) ++ m.channels.toList.flatMap (fun c => u16 c.trim)

/-- Eight lines in one byte (R193). -/
def Lines.byte (l : Lines) : List Byte :=
  u8 (bitAt l.filmPresent 0 + bitAt l.tensionOk 1 + bitAt l.gateClosed 2 + bitAt l.endSensor 3 +
    bitAt l.interlock 4 + bitAt l.laserReady.red 5 + bitAt l.laserReady.green 6 + bitAt l.laserReady.blue 7)

/-- The LINES content: offsets 38 and 39 of the status record (R193). -/
def Pins.content (p : Pins) : List Byte := p.levels.byte ++ p.changed.byte

/-- R185: outcome, revolutions completed, revolution, pulse count, facet, period and deadline of the
last calibration outcome, absent fields as 0. -/
def CalOutcome.content : CalOutcome → List Byte
  | .none => u8 0 ++ u8 0 ++ u8 0 ++ u8 0 ++ u8 0 ++ u32 0 ++ u8 0
  | .locked n => u8 1 ++ u8 n ++ u8 0 ++ u8 0 ++ u8 0 ++ u32 0 ++ u8 0
  | .facetCount n r p => u8 2 ++ u8 n ++ u8 r ++ u8 p ++ u8 0 ++ u32 0 ++ u8 0
  | .outOfRange n f p => u8 3 ++ u8 n ++ u8 0 ++ u8 0 ++ u8 f ++ u32 p ++ u8 0
  | .noSignal n d => u8 4 ++ u8 n ++ u8 0 ++ u8 0 ++ u8 0 ++ u32 0 ++ u8 d.code

/-- The SCAN content, 12 bytes (R185). -/
def Scan.content (c : Scan) : List Byte :=
  u8 c.state.code ++ u8 c.state.causeCode ++ c.outcome.content

/-- The link flags in one byte (R193). -/
def LinkFlags.byte (f : LinkFlags) : List Byte := u8 (bitAt f.crc 0 + bitAt f.framing 1 + bitAt f.overrun 2)

/-- The notice mask in one byte (R186). -/
def NoticeMask.byte (m : NoticeMask) : List Byte := u8 (bitAt m.scan 0 + bitAt m.monitor 1 + bitAt m.lines 2)

/-- The head job: the oldest LIVE job (R2). -/
def State.head (s : State) : Option Job := s.jobs.live.head?

/-- The status record, 40 bytes (R193). -/
def State.statusRecord (s : State) : List Byte :=
  u8 s.run.state.code ++ u8 s.seq.phase.code ++ u8 s.run.mode.code ++ u8 s.run.pendingStop.code ++
  u16 ((s.head.map Job.tag).getD 0) ++ u8 s.jobs.live.length ++ u8 s.jobs.results.length ++
  u8 (bitAt s.reel.isSome 0) ++ u16 s.transport.position ++ u8 s.transport.gate.code ++
  u8 s.transport.state.code ++ u8 s.transport.state.causeCode ++ u8 s.scan.state.code ++
  u8 s.scan.state.causeCode ++ u8 s.scan.misses ++ s.lasers.toList.flatMap (fun l => u8 l.code) ++
  u8 (bitAt s.pins.levels.interlock 0) ++ s.monitor.content ++ u8 s.log.entries.length ++
  haltRecordBytes s.run.halt ++ s.link.flags.byte ++ s.pins.content

/-- The reply as a message (R182): type 80h or 81h, the request's tag, the request type first. -/
def Reply.message (request : Message) : Reply → Message
  | .accept items => ⟨0x80, request.tag, request.type :: items⟩
  | .refuse code detail => ⟨0x81, request.tag, request.type :: (u8 code.code ++ u16 detail)⟩

/-- A notice as a message (R185): type 82h, tag 0, the class byte first. -/
def noticeMessage (cls : Nat) (content : List Byte) : Message := ⟨0x82, 0, u8 cls ++ content⟩

/-! ## Outputs that are functions of the state -/

/-- R119: the gate drive is asserted, closing the gate, in SETTLING and REGISTERED. -/
def TransportState.gateDrive : TransportState → Bool
  | .settling | .registered => true
  | .empty | .opened | .advancing | .fault _ => false

/-- R119: the pull-down drive runs the claw in ADVANCING. -/
def TransportState.pullDownDrive : TransportState → Bool
  | .advancing => true
  | .empty | .opened | .settling | .registered | .fault _ => false

/-- R178: the places of the receive buffer that are taken; a message in reception takes one. -/
def Link.places (l : Link) : Nat := l.buffer.length + (if l.receiver = .hunting then 0 else 1)

/-- R178, R188: LRDY is asserted while at least one place is free and RESET is released. -/
def State.lrdy (s : State) : Bool := !s.resetPin && decide (s.link.places < Config.bufferPlaces)

/-- R176: the bits that the transmit pair carries for the message under transmission, in the order sent; with none
under way the pair idles. -/
def State.transmitPair (s : State) : List Bool :=
  match s.link.transmitter with
  | some t => lineBits t.msg.frame
  | none => []

end Sys2Proof.Machine
end

