-- ==== Sys2Proof/Machine/Drive.lean ====
section
/-! DEFINITION. Tables by number, the frame store's lines, and the drive of pixels and lines: curve
lookup, trim and clamp (R57, R58), pulse placement (R60), reference pulse (R62), line timing (R100,
R149). -/

namespace Sys2Proof.Machine

/-! ## Tables: pairs with rising numbers -/

/-- What a number holds. -/
def Table.get {α : Type} : Table α → Nat → Option α
  | [], _ => none
  | (k, v) :: t, a => if k = a then some v else Table.get t a

/-- The number holds a value from now on. -/
def Table.put {α : Type} : Table α → Nat → α → Table α
  | [], a, x => [(a, x)]
  | (k, v) :: t, a, x =>
    if a < k then (a, x) :: (k, v) :: t
    else if a = k then (a, x) :: t
    else (k, v) :: Table.put t a x

/-- The number holds nothing from now on. -/
def Table.erase {α : Type} (t : Table α) (a : Nat) : Table α := t.filter fun e => e.1 ≠ a

/-- The value a number holds, changed. -/
def Table.modify {α : Type} (t : Table α) (a : Nat) (f : α → α) : Table α :=
  t.map fun e => if e.1 = a then (e.1, f e.2) else e

/-- The canonical form: numbers strictly rising. -/
abbrev Table.wf {α : Type} (t : Table α) : Prop := t.Pairwise fun x y => x.1 < y.1

/-! ## The frame store (R27) -/

/-- The canonical form of the frame store: slots strictly rising, and no listed slot without a word
(a slot of which no word is stored is not listed). -/
abbrev Memory.wf (m : Memory) : Prop := Table.wf m ∧ ∀ e ∈ m, e.2 ≠ []

/-- R27: a Line Data write stores its words in the slot from word 0 on; the slot's remaining words are
not written. -/
def Memory.writeLine (m : Memory) (slot : Nat) (words : List Half) : Memory :=
  if words = [] then m
  else Table.put m slot (words ++ ((Table.get m slot).getD []).drop words.length)

/-- `n` words of a slot from word `i` on, of which `row` are stored: the rest is unspecified, a free
value of this hardware reset (R27, R45; log 12). -/
def wordsFrom (epoch slot : Nat) : Nat → Nat → List Half → List Half
  | _, 0, _ => []
  | i, n + 1, [] => Config.freeWord epoch slot i :: wordsFrom epoch slot (i + 1) n []
  | i, n + 1, w :: ws => w :: wordsFrom epoch slot (i + 1) n ws

/-- R27: a prefetch read returns the first words of one slot. -/
def Memory.readLine (m : Memory) (epoch slot width : Nat) : List Half :=
  wordsFrom epoch slot 0 width ((Table.get m slot).getD [])

/-! ## One pixel (R57, R58, R60) -/

/-- R57: the code value is the low 12 bits of the pixel word. -/
def codeValue (w : Half) : Nat := w.toNat % 4096

/-- R57: the entry of a channel's curve for a code value. An entry that has not been loaded is
unspecified, a free value (R63; log 13). -/
def curveEntry (curves : Table CurveSet) (epoch set : Nat) (ch : Channel) (v : Nat) : DriveEntry :=
  match (Table.get curves set).bind fun c => (c.entries.get ch)[v]? with
  | some e => e
  | none => ⟨(Config.freeEntry epoch set ch.code v).1, (Config.freeEntry epoch set ch.code v).2⟩

/-- R58: the trimmed level before any clamp: (L × t + 2048) / 4096, rounded down. -/
def trimmedLevel (level trim : Nat) : Nat := (level * trim + 2048) / 4096

/-- R60: the first lit sub-period of a pixel of duty d. -/
def startSubPeriod (p : Placement) (d : Nat) : Nat :=
  match p with
  | .leading => 0
  | .centered => (16 - d) / 2
  | .trailing => 16 - d

/-- R58, R60: the drive of one pixel from its entry, the channel's trim and the placement. A pixel of
duty 0 is dark and records no clamp. -/
def pixelDrive (p : Placement) (trim : Nat) (e : DriveEntry) : PixelDrive :=
  if e.duty = 0 then ⟨0, 0, 0, false⟩
  else
    ⟨min (trimmedLevel e.level trim) 4095, e.duty, startSubPeriod p e.duty,
      decide (4095 < trimmedLevel e.level trim)⟩

/-- R62: the level of the reference pulse at a trim. -/
def pulseLevel (trim : Nat) : Nat := trimmedLevel Config.referenceLevel trim

/-- Whether one of the first `n` pixels of a row was clamped (R59). -/
def PixelRow.clampedIn (n : Nat) : PixelRow → Bool
  | .alike d => d.clamped && decide (0 < n)
  | .each ds => (ds.take n).any PixelDrive.clamped

/-- Whether some channel clamped one of the first `n` pixels of the line (R103). -/
def LineDrive.clampedIn (n : Nat) (l : LineDrive) : Bool := l.pixels.any (PixelRow.clampedIn n)

/-! ## One line (R88, R100, R101, R149) -/

/-- The words of one plane in a line set (R88). -/
def rowWords (rows : List Row) (sel : Selector) : List Half :=
  match rows.find? (fun r => decide (r.sel = sel)) with
  | some r => r.words
  | none => []

/-- R57, R101, R102: the pixels of a line on one channel. -/
def channelRow (s : State) (work : Work) (rows : List Row) (ch : Channel) : PixelRow :=
  let px (curve v : Nat) : PixelDrive :=
    pixelDrive s.placement (s.monitor.channels.get ch).trim (curveEntry s.curves s.freeEpoch curve ch v)
  match work with
  | .expose planes curve _ => .each ((rowWords rows (planes.get ch)).map fun w => px curve (codeValue w))
  | .flash curve values => .alike (px curve (values.get ch))
  | .blank => .each []

/-- R100, R149: the active-start delay of a facet's line: horizontal offset plus the facet's start
correction, taken as 0 where the sum is negative. -/
def activeStart (offset : Nat) (corrections : List Int) (facet : Nat) : Nat :=
  ((offset : Int) + corrections.getD facet 0).toNat

/-- R100: how many pixels of a line have begun `elapsed` ns after its facet sync. -/
def pixelsBegun (delay pixelPeriod width elapsed : Nat) : Nat :=
  min width (((elapsed - delay) * 1000 + (pixelPeriod - 1)) / pixelPeriod)

/-- R100, R101, R102: the drive of a line is laid out at its facet sync. A line whose active-start
delay is 0 has no reference pulse (R62). Its clamps set the saturation mark (R103), and each channel
whose clock is present may give a reading of its pulse (R159). -/
def layLine (line facet : Nat) (reel : Reel) (work : Work) (rows : List Row) (s : State) : State :=
  let delay := activeStart reel.offset s.scan.corrections facet
  let l : LineDrive :=
    { line := line
      facet := facet
      delay := delay
      pulse := if delay = 0 then none else some (s.monitor.channels.map fun c => pulseLevel c.trim)
      pixels := ⟨channelRow s work rows .red, channelRow s work rows .green, channelRow s work rows .blue⟩
      markBefore := s.seq.saturation }
  { s with
    drive := some l
    seq := { s.seq with saturation := s.seq.saturation || l.clampedIn reel.width }
    monitor := { s.monitor with
      channels := s.monitor.channels.map fun c => { c with expecting := decide (delay ≠ 0) && !c.lost } } }

/-- R100: a facet sync received `elapsed` ns after the line's own sync ends the line: only the pixels
begun by then have been driven, and only their clamps count (log 19). -/
def cutLine (elapsed : Nat) (s : State) : State :=
  match s.drive, s.reel with
  | some l, some reel =>
    let n := pixelsBegun l.delay s.scan.geometry.pixelPeriod reel.width elapsed
    { s with seq := { s.seq with saturation := l.markBefore || l.clampedIn n } }
  | _, _ => s

/-- R104, R107, R158: every channel is blanked; no reading of the line's pulse is still to come. -/
def blankDrive (s : State) : State :=
  { s with
    drive := none
    monitor := { s.monitor with channels := s.monitor.channels.map fun c => { c with expecting := false } } }

/-! ## The outputs to the modulator drivers (R60, R100, R158) -/

/-- R158: a channel that is not driven. -/
def ChannelOutput.blanked : ChannelOutput := ⟨0, false, true⟩

/-- R62, R100: a channel driven with the reference pulse. -/
def ChannelOutput.pulse (level : Nat) : ChannelOutput := ⟨level, true, false⟩

/-- The drive of pixel `p` of a row. -/
def PixelRow.pixel (p : Nat) : PixelRow → Option PixelDrive
  | .alike d => some d
  | .each ds => ds[p]?

/-- R60, R158: a channel driven with a pixel, in sub-period `k` of the pixel period. A dark pixel has level word 0
and its strobe deasserted, with the blanking output deasserted. -/
def PixelDrive.output (k : Nat) (d : PixelDrive) : ChannelOutput :=
  ⟨d.level, decide (d.start ≤ k ∧ k < d.start + d.duty), false⟩

/-- R100, R158: a channel `t` ps after the facet sync of a line: the reference pulse up to the active start, then the
pixels, each in its pixel period, and after the last pixel blanked. -/
def LineDrive.output (width pixelPeriod : Nat) (ch : Channel) (t : Nat) (l : LineDrive) : ChannelOutput :=
  let lit := t - l.delay * 1000
  if t < l.delay * 1000 then
    match l.pulse with
    | some level => .pulse (level.get ch)
    | none => .blanked
  else if lit / pixelPeriod < width then
    match (l.pixels.get ch).pixel (lit / pixelPeriod) with
    | some d => d.output (lit % pixelPeriod * 16 / pixelPeriod)
    | none => .blanked
  else .blanked

/-- R158: the outputs of a channel `t` ps after the last facet sync passed on (log 24). With no line under way every
channel is blanked. -/
def State.output (ch : Channel) (t : Nat) (s : State) : ChannelOutput :=
  match s.drive with
  | some l => l.output ((s.reel.map Reel.width).getD 0) s.scan.geometry.pixelPeriod ch t
  | none => .blanked

/-! ## The geometry check (R69) -/

/-- R69: the largest facet correction. -/
def largestCorrection : List Int → Int
  | [] => 0
  | c :: cs => cs.foldl max c

/-- R69: the length of one exposed line, in ps. -/
def lineLength (reel : Reel) (c : Scan) : Nat :=
  reel.width * c.geometry.pixelPeriod + ((reel.offset : Int) + largestCorrection c.corrections).toNat * 1000

end Sys2Proof.Machine
end

