-- ==== Sys2Proof/Machine/Ops.lean ====
section
/-! DEFINITION. The operations the commands share, from the Job Store to the frame cycle: use counts and
job ends (R9, R10, R16, R17), the Frame Store Arbiter and the prefetcher (R41, R42, R93), halts,
abandonment and spoils (R72, R84, R107, R112), pull-down requests and transport faults (R122, R123),
the trim update (R165), and the frame cycle (R89 to R105). -/

namespace Sys2Proof.Machine

/-! ## Replies -/

/-- R180: a block's answer becomes the reply to the current request, pending at the transmit arbiter; in the same step
as the request's effects, so that a notice they raise never goes before it (R184 leaves it open; log 37). -/
def State.answer (r : Reply) (s : State) : State :=
  { s with link := { s.link with current := s.link.current.map fun c => { c with stage := .replyPending r } } }

/-- R183: the current request waits for work outside the link. -/
def State.await (s : State) : State :=
  { s with link := { s.link with current := s.link.current.map fun c => { c with stage := .waiting } } }

/-- R182: an ACCEPT reply with its items. -/
def State.accept (items : List Byte) (s : State) : State := s.answer (.accept items)

/-- One row of a table of checks: whether it fails, and the refusal's code and detail. -/
abbrev Check := Bool × RefusalCode × Nat

/-- The first check that fails is the refusal. -/
def firstFailing : List Check → Option Reply
  | [] => none
  | (fails, code, detail) :: rest => if fails then some (.refuse code detail) else firstFailing rest

/-- A request is examined: the first check that fails is the refusal and the request changes nothing
else; when every check passes, its effects follow. -/
def State.examine (checks : List Check) (effect : State → State) (s : State) : State :=
  match firstFailing checks with
  | some r => s.answer r
  | none => effect s

/-! ## Job Store -/

/-- The head job's record is changed (R6, R20). -/
def State.modifyHead (f : Job → Job) (s : State) : State :=
  { s with jobs := { s.jobs with
      live := match s.jobs.live with
        | [] => []
        | j :: rest => f j :: rest } }

/-- The tag of the head job, as halt records and log entries carry it. -/
def State.headTag (s : State) : Option Nat := s.head.map Job.tag

/-- R1: no slot is EMPTY. -/
def JobStore.isFull (j : JobStore) : Bool := decide (Config.jobSlots ≤ j.live.length + j.results.length)

/-- R10: the use count of each of some planes is changed. -/
def usePlanes (f : Nat → Nat) (sels : List Selector) (t : Table Plane) : Table Plane :=
  sels.foldl (fun t sel => Table.modify t sel.wire fun p => { p with use := f p.use }) t

/-- R10: the use count of a job's curve set is changed. -/
def useCurve (f : Nat → Nat) (set : Option Nat) (t : Table CurveSet) : Table CurveSet :=
  match set with
  | some n => Table.modify t n fun c => { c with use := f c.use }
  | none => t

/-- R9 step 3: a job's use counts are claimed, once for each distinct plane and once for its curve
set. -/
def State.claimUses (w : Work) (s : State) : State :=
  { s with planes := usePlanes (· + 1) w.planes s.planes, curves := useCurve (· + 1) w.curve s.curves }

/-- R16 step 2: a job's use counts are released. -/
def State.releaseUses (w : Work) (s : State) : State :=
  { s with planes := usePlanes (· - 1) w.planes s.planes, curves := useCurve (· - 1) w.curve s.curves }

/-- R17, R35: each distinct REEL descriptor of a completed job with its release flag set, whose use
count is now 0, becomes UNDEFINED. -/
def State.releasePlanes (w : Work) (s : State) : State :=
  if w.release then
    let freed := (w.planes.filter Selector.isReel).map Selector.wire
    { s with planes := s.planes.filter fun e => !(freed.contains e.1 && decide (e.2.use = 0)) }
  else s

/-- R16: the end of a LIVE job, in the rule's order of effect. Its Job Result notice is pending from
now on (R3). -/
def State.endJob (o : JobOutcome) (j : Job) (s : State) : State :=
  let s1 := { s with jobs := { s.jobs with live := s.jobs.live.eraseP fun k => decide (k.tag = j.tag) } }
  let s2 := s1.releaseUses j.work
  let s3 := if o = .complete then s2.releasePlanes j.work else s2
  { s3 with jobs := { s3.jobs with results := s3.jobs.results ++ [{ j with outcome := some o }] } }

/-- R17, R105 step 1: whether the head job has reached its repeat count. -/
def State.headDone (s : State) : Bool :=
  match s.head with
  | some j => decide (j.framesDone = j.repeatCount)
  | none => false

/-- R17, R105 step 1: a head job that has reached its repeat count ends COMPLETE. -/
def State.completeHead (s : State) : State :=
  match s.head with
  | some j => if j.framesDone = j.repeatCount then s.endJob .complete j else s
  | none => s

/-- R6: a position is written as last, and as first where none is. -/
def Job.atPosition (p : Nat) (j : Job) : Job :=
  { j with positions := some ⟨(j.positions.map Positions.first).getD p, p⟩ }

/-! ## Frame Store Arbiter (R41, R42) -/

/-- R41, R42: while the frame store is idle the arbiter serves a waiting claim. With both claims
waiting, fewer than 4 complete line sets favour the prefetcher; otherwise the claimant not served last
goes first. -/
def Arbiter.serve (completeSets : Nat) (a : Arbiter) : Arbiter :=
  let serveRead (c : ReadClaim) : Arbiter := { a with access := some (.read c false), readWaiting := none }
  let serveWrite (c : WriteClaim) : Arbiter := { a with access := some (.write c), writeWaiting := none }
  match a.access, a.readWaiting, a.writeWaiting with
  | some _, _, _ => a
  | none, none, none => a
  | none, some r, none => serveRead r
  | none, none, some w => serveWrite w
  | none, some r, some w =>
    if completeSets < Config.sharedDepth then serveRead r
    else match a.lastServed with
      | .planeWriter => serveRead r
      | .prefetcher => serveWrite w

/-- R41: the arbiter chooses with the Line Prefetch Queue as it stands. -/
def State.serve (s : State) : State := { s with arbiter := s.arbiter.serve s.seq.queue.length }

/-- R41: the prefetcher has a claim waiting or a read in progress. -/
def Arbiter.prefetcherBusy (a : Arbiter) : Bool :=
  a.readWaiting.isSome ||
    match a.access with
    | some (.read _ _) => true
    | some (.write _) | none => false

/-- R43: a waiting read claim is withdrawn, and the words of a read in progress are discarded. -/
def Arbiter.withdrawRead (a : Arbiter) : Arbiter :=
  { a with
    readWaiting := none
    access := match a.access with
      | some (.read c _) => some (.read c true)
      | some (.write c) => some (.write c)
      | none => none }

/-! ## Prefetcher (R93) -/

/-- R93: the raster line `n` is below the fill mark of every plane. -/
def belowFillMarks (t : Table Plane) (n : Nat) (sels : List Selector) : Bool :=
  sels.all fun sel =>
    match Table.get t sel.wire with
    | some p => decide (n < p.fill)
    | none => false

/-- The read of one line of one plane (R27, R88). -/
def readClaim (t : Table Plane) (width line : Nat) (sel : Selector) : ReadClaim :=
  { sel := sel
    slot := ((Table.get t sel.wire).map Plane.base).getD 0 + line
    width := width }

/-- R93: the planes of the line set the prefetcher may begin now, none where a condition fails. Besides
the rule's four conditions, the frame is an EXPOSE frame in PREPARING or EXPOSING, and the prefetcher
has no claim waiting or in progress (R41; log 15). -/
def State.prefetchable (s : State) : List Selector :=
  match s.head, s.reel with
  | some j, some reel =>
    if s.seq.phase ≠ .between ∧ s.seq.assembly = none ∧ s.seq.cursor < reel.lines ∧
        belowFillMarks s.planes s.seq.cursor j.work.planes ∧ s.seq.queue.length < Config.queueDepth ∧
        s.arbiter.prefetcherBusy = false
    then j.work.planes
    else []
  | _, _ => []

/-- The raster width of the open reel. -/
def State.rasterWidth (s : State) : Nat := (s.reel.map Reel.width).getD 0

/-- The raster lines of the open reel. -/
def State.rasterLines (s : State) : Nat := (s.reel.map Reel.lines).getD 0

/-- R93: the next line set is begun if its conditions hold: the read of its first plane is claimed. -/
def State.beginSet (s : State) : State :=
  match s.prefetchable with
  | [] => s
  | sel :: rest =>
    { s with
      seq := { s.seq with assembly := some ⟨s.seq.cursor, [], sel :: rest⟩ }
      arbiter := { s.arbiter with
        readWaiting := some (readClaim s.planes s.rasterWidth s.seq.cursor sel) } }

/-- R93, R41: the prefetcher's conditions are examined, and the arbiter serves a claim if it can. -/
def State.prefetch (s : State) : State := s.beginSet.serve

/-! ## Halts, abandonment, spoils -/

/-- R112, R84: the sequencer lays down its work: timer stopped, queue emptied, set in assembly absent,
cursor and line counter 0, marks clear, phase BETWEEN; the prefetcher's claim withdrawn (R43); every
channel blanked (R112). Where it follows a clean frame end with no halt, or a pause abandons a frame, what R88, R90 and
R112 leave open of these values is the model's choice (log 38). -/
def State.layDown (s : State) : State :=
  blankDrive { s with seq := Sequencer.reset, arbiter := s.arbiter.withdrawRead }

/-- R72, R112: a halt, in the rules' order of effect. -/
def State.halt (reason : HaltReason) (s : State) : State :=
  State.raise .halt
    { s.layDown with
      run := { s.run with
        state := .stopped
        pendingStop := .none
        halt := some ⟨reason, s.transport.position, s.headTag⟩ } }

/-- R171: an entry is appended to the log, and its SPOIL notice becomes pending. -/
def SpoilLog.append (e : SpoilEntry) (l : SpoilLog) : SpoilLog := ⟨l.entries ++ [e], l.unsent + 1⟩

/-- R106: the halt reason of each cause. -/
def SpoilCause.reason : SpoilCause → HaltReason
  | .underrun => .underrun | .powerFault => .powerFault | .scanLost => .scanLost
  | .laserFault => .laserFault | .interlock => .interlock | .transportFault => .transportFault
  | .stopNow => .stopRequest | .softReset => .softReset | .monitorLost => .monitorLost

/-- R6: a count that stops at 64. -/
def raiseCount (n : Nat) : Nat := min (n + 1) Config.countStop

/-- R107: a spoil, in the rule's order of effect: blanked, spoiled count raised, entry appended, run
halted (which empties the queue and discards the marks). The gate frame state, the frame position and
the means are unchanged. -/
def State.spoil (cause : SpoilCause) (line : Nat) (channel : Option Channel) (s : State) : State :=
  let s1 := (blankDrive s).modifyHead fun j => { j with spoiled := raiseCount j.spoiled }
  let entry : SpoilEntry :=
    { kind := .spoiled
      position := s.transport.position
      tag := s.headTag.getD 0
      cause := cause
      line := some line
      channel := channel }
  State.halt cause.reason { s1 with log := s1.log.append entry }

/-- R82, R96, R106, R148, R154, R156, R122: what the loss of the scan, a laser fault, the opening of
the interlock and a transport fault do to the run: a frame in EXPOSING is spoiled at the line counter; a
frame in PREPARING, a PAUSED run and a run waiting in BETWEEN halt; a STOPPED run is not affected. -/
def State.meetFault (cause : SpoilCause) (channel : Option Channel) (s : State) : State :=
  match s.seq.phase with
  | .exposing => s.spoil cause s.seq.lineCounter channel
  | .preparing => s.halt cause.reason
  | .between => if s.run.state = .stopped then s else s.halt cause.reason

/-- R80, R84: a frame in PREPARING is abandoned, or the sequencer stands in BETWEEN: the run comes to
rest. A pull-down already requested carries on. The sequencer's items are laid down at once (log 38). -/
def State.rest (s : State) : State :=
  { s.layDown with run := { s.run with state := .paused } }

/-! ## Pull-down (R123) -/

/-- The answer to a pull-down request (R123). -/
inductive PullDownAnswer where
  | notRegistered | endOfReel | taken
  deriving DecidableEq, Repr

/-- R123: a pull-down request is examined against the transport as it stands. -/
def State.pullDownAnswer (s : State) : PullDownAnswer :=
  if s.transport.state ≠ .registered then .notRegistered
  else if s.reel.any fun r => decide (s.transport.position = r.capacity - 1) then .endOfReel
  else if s.pins.levels.endSensor then .endOfReel
  else .taken

/-- R123 check 4: the pull-down is taken. -/
def State.startPullDown (s : State) : State :=
  { s with transport := { s.transport with
      state := .advancing
      perfs := 0
      pullDownTimer := some s.transport.timeout } }

/-- R122 steps 1 and 2: gate open and claw off (the outputs of FAULT), timers stopped, the cause recorded;
an Advance Frames series is over (R131). -/
def Transport.enterFault (cause : TransportCause) (t : Transport) : Transport :=
  { t with state := .fault cause, pullDownTimer := none, settleTimer := none, settleEnds := none, series := none }

/-- R131: a series that ends in a fault is answered REFUSE TRANSPORT_FAULT with the pull-downs done. -/
def State.endSeries (series : Option Series) (s : State) : State :=
  match series with
  | some x => s.answer (.refuse .transportFault x.done)
  | none => s

/-- R122: entry into FAULT. A series in flight is answered, and the fault is made known to the run. -/
def State.enterTransportFault (cause : TransportCause) (s : State) : State :=
  State.meetFault .transportFault none
    (State.endSeries s.transport.series { s with transport := s.transport.enterFault cause })

/-! ## Trim update (R165) -/

/-- R165 steps 1 and 2: the raw value, limited to a step of 64. -/
def steppedTrim (trim target mean : Nat) : Nat :=
  max (min (trim * target / max mean 1) (trim + Config.trimStep)) (trim - Config.trimStep)

/-- R165 step 3: the value held within 3072..5120. -/
def clampTrim (t : Nat) : Nat := max (min t Config.trimMax) Config.trimMin

/-- R165: the update of one channel whose last frame mean is valid and not applied. -/
def State.trimChannel (p : PowerTargets) (ch : Channel) (s : State) : State :=
  let c := s.monitor.channels.get ch
  if c.valid && !c.applied then
    let stepped := steppedTrim c.trim (p.channels.get ch).target c.mean
    let s1 := s.setChannel ch { c with trim := clampTrim stepped, applied := true }
    if clampTrim stepped = stepped then s1
    else s1.setMonitorFlags ch { MonitorFlags.clear with trimLimit := true }
  else s

/-- R92, R165: the trim update, asked for on entry to PREPARING. -/
def State.trimUpdate (s : State) : State :=
  match s.monitor.targets with
  | none => s
  | some p => ((s.trimChannel p .red).trimChannel p .green).trimChannel p .blue

/-! ## The frame cycle -/

/-- Whether some channel's monitor clock is lost (R160). -/
def Monitor.anyLost (m : Monitor) : Bool := m.channels.any MonitorChannel.lost

/-- R90 step 2: the sequencer is in PREPARING, with its items as after a halt (of which R90 says the cursor and the queue;
log 38) and the lead-in timer started. -/
def State.enterPreparing (s : State) : State :=
  { s.layDown with seq := { Sequencer.reset with phase := .preparing, leadTimer := some s.run.leadIn } }

/-- R91: the sequencer acts on the answer to its pull-down request. -/
def State.requestPullDown (s : State) : State :=
  match s.pullDownAnswer with
  | .taken => s.startPullDown
  | .endOfReel => s.halt .endOfReel
  | .notRegistered => s.halt .transportFault

/-- R90: entry to PREPARING, less the passing of a BLANK frame. The trim update, the prefetcher and the
pull-down request are started together; a refused pull-down then halts the run (R91; log 17). -/
def State.prepare (s : State) : State :=
  if s.monitor.anyLost then s.halt .monitorLost
  else
    let t := s.enterPreparing.trimUpdate.prefetch
    match s.transport.gate with
    | .fresh => t
    | .used => t.requestPullDown

/-- R89: what the sequencer does in BETWEEN in RUNNING: it prepares the head job's frame, or with no
head job halts or waits. A pending stop with no head job takes effect at once (R78; log 18). While it waits in
HOLD_ON_EMPTY, its items are laid down (log 38). -/
def State.goOn (s : State) : State :=
  match s.head with
  | some _ => s.prepare
  | none =>
    if s.run.pendingStop ≠ .none then s.halt .stopRequest
    else match s.run.mode with
      | .endOnEmpty => s.halt .queueEmpty
      | .holdOnEmpty => s.layDown

/-- R105: frame end. -/
def State.frameEnd (s : State) : State :=
  let s1 := s.completeHead
  if s.run.pendingStop = .atFrame ∨ s.run.pendingStop = .now ∨
      (s.run.pendingStop = .atJob ∧ s.headDone = true) then s1.halt .stopRequest
  else if s.run.state = .pausing then s1.rest
  else s1.goOn

/-- R94, R98: the transport condition: REGISTERED with the gate FRESH. -/
def Transport.isReady (t : Transport) : Bool := decide (t.state = .registered ∧ t.gate = .fresh)

/-- R98 steps 1 to 3: the frame is passed. -/
def State.countBlank (s : State) : State :=
  State.modifyHead (fun k => Job.atPosition s.transport.position { k with framesDone := k.framesDone + 1 })
    { s with
      seq := { s.seq with leadTimer := none, phase := .between }
      transport := { s.transport with gate := .used } }

/-- R98: a BLANK frame in PREPARING is passed as soon as the transport condition holds. -/
def State.passBlank (s : State) : State :=
  match s.head with
  | some j =>
    if s.seq.phase = .preparing ∧ j.work = .blank ∧ s.transport.isReady then s.countBlank.frameEnd else s
  | none => s

/-- R89, R98: the sequencer stands in BETWEEN in RUNNING and acts; a BLANK frame so prepared may be
passed at once. The frame after it finds the gate USED and cannot be. -/
def State.between (s : State) : State := s.goOn.passBlank

/-- R164: the frame's sums become the last frame mean, valid where every line gave a reading. -/
def MonitorChannel.frameMean (lines : Nat) (c : MonitorChannel) : MonitorChannel :=
  if c.count = lines then { c with mean := c.sum / c.count, valid := true, applied := false }
  else { c with valid := false, applied := false }

/-- R110 step 3, R166 step 3: the last frame mean becomes invalid. -/
def MonitorChannel.withoutMean (c : MonitorChannel) : MonitorChannel := { c with valid := false }

/-- R99 step 5, R164: frame sum, frame count and breach counter are cleared. -/
def MonitorChannel.newFrame (c : MonitorChannel) : MonitorChannel := { c with sum := 0, count := 0, breaches := 0 }

/-- R104 steps 1 to 3: every channel is blanked, the phase leaves EXPOSING, and the frame is counted. -/
def State.countFrame (s : State) : State :=
  (blankDrive { s with seq := { s.seq with phase := .between } }).modifyHead fun j =>
    { j with
      framesDone := j.framesDone + 1
      saturated := if s.seq.saturation then j.saturated + 1 else j.saturated }

/-- R104 step 5: the frame's sums become the last frame means. -/
def State.takeMeans (s : State) : State :=
  { s with monitor := { s.monitor with
      channels := s.monitor.channels.map (MonitorChannel.frameMean s.rasterLines) } }

/-- R110 steps 1 to 3: the suspect count rises, the SUSPECT entry is appended, and every last frame mean
becomes invalid. -/
def State.logSuspect (ch : Channel) (s : State) : State :=
  let s1 := s.modifyHead fun j => { j with suspect := raiseCount j.suspect }
  let entry : SpoilEntry :=
    { kind := .suspect
      position := s.transport.position
      tag := s.headTag.getD 0
      cause := .monitorLost
      line := none
      channel := some ch }
  { s1 with
    log := s1.log.append entry
    monitor := { s1.monitor with channels := s1.monitor.channels.map MonitorChannel.withoutMean } }

/-- R110: the end of a suspect frame, whose mark names `ch`. -/
def State.suspectEnd (ch : Channel) (s : State) : State := (s.logSuspect ch).completeHead.halt .monitorLost

/-- R104, R110: the clean end of a frame, and of a suspect one. -/
def State.cleanEnd (s : State) : State :=
  match s.seq.suspect with
  | some ch => s.countFrame.suspectEnd ch
  | none => s.countFrame.takeMeans.frameEnd.passBlank

/-- R94: the exposure start conditions of an EXPOSE or FLASH frame. -/
def State.mayExpose (s : State) : Bool :=
  match s.head with
  | some j =>
    (match j.work with
      | .expose .. => decide (min 8 s.rasterLines ≤ s.seq.queue.length)
      | .flash .. => true
      | .blank => false) &&
    s.transport.isReady && decide (s.scan.state = .locked) &&
    s.lasers.all (fun l => decide (l = .ready)) && s.pins.levels.interlock && !s.monitor.anyLost
  | none => false

/-- R99 steps 1 to 5: the frame enters EXPOSING. -/
def State.beginExposing (s : State) : State :=
  let s1 := { s with
    seq := { s.seq with
      phase := .exposing
      leadTimer := none
      lineCounter := 0
      saturation := false
      suspect := none }
    transport := { s.transport with gate := .used }
    monitor := { s.monitor with
      channels := s.monitor.channels.map MonitorChannel.newFrame } }
  s1.modifyHead (Job.atPosition s.transport.position)

/-- R101: the line of a facet sync is provided: an EXPOSE line from the head of the queue, or an
UNDERRUN spoil where it is empty; a FLASH line from the flash values. -/
def State.driveLine (line facet : Nat) (s : State) : State :=
  match s.head, s.reel with
  | some j, some reel =>
    match j.work with
    | .expose .. =>
      match s.seq.queue with
      | [] => s.spoil .underrun line none
      | set :: rest =>
        (layLine line facet reel j.work set.rows { s with seq := { s.seq with queue := rest } }).prefetch
    | .flash .. => layLine line facet reel j.work [] s
    | .blank => s
  | _, _ => s

/-- R94, R99 to R101, R104: a facet sync of facet `facet` reaches the Frame Sequencer, `elapsed` ns
after the previous SOS. -/
def State.facetSync (facet elapsed : Nat) (s : State) : State :=
  match s.seq.phase with
  | .between => s
  | .preparing => if s.mayExpose then s.beginExposing.driveLine 0 facet else s
  | .exposing =>
    let s1 := cutLine elapsed s
    if s.seq.lineCounter + 1 < s.rasterLines then
      State.driveLine (s.seq.lineCounter + 1) facet
        { s1 with seq := { s1.seq with lineCounter := s.seq.lineCounter + 1 } }
    else s1.cleanEnd

/-! ## Loss of lock (R148) -/

/-- R148: the lock is lost. -/
def State.loseLock (cause : LossCause) (s : State) : State :=
  State.raise .scan
    (State.meetFault .scanLost none { s with scan := { s.scan with state := .lost cause, noSignal := none } })

/-! ## Readiness checks (R67, R68, R83) -/

/-- R68: the readiness checks in order; the low byte of the detail is the check, the high byte the
channel. -/
def State.readinessChecks (mode : RunMode) (s : State) : List Check :=
  let laser := s.lasers.first fun l => decide (l ≠ .ready)
  let clock := s.monitor.channels.first MonitorChannel.lost
  [ (decide (mode = .endOnEmpty ∧ s.jobs.live = []), .notReady, 1),
    (decide (s.scan.state ≠ .locked), .notReady, 2),
    (!s.pins.levels.interlock, .notReady, 3),
    (laser.isSome, .notReady, 4 + 256 * (laser.map Channel.code).getD 0),
    (clock.isSome, .notReady, 5 + 256 * (clock.map Channel.code).getD 0),
    (s.reel.any fun r => decide (s.scan.geometry.period * 1000 < lineLength r s.scan), .notReady, 6),
    (decide (s.transport.state ≠ .registered), .notReady, 7) ]

/-- R67 from check 4 on, as Start Run and Resume Run make them. -/
def State.startChecks (mode : RunMode) (s : State) : List Check :=
  (s.reel.isNone, .noReel, 0) ::
  (decide (Config.logEntries ≤ s.log.entries.length), .logFull, 64) ::
  s.readinessChecks mode

end Sys2Proof.Machine
end

