-- ==== Sys2Proof/Machine/LinkOps.lean ====
section
/-! DEFINITION. The Link Interface: reception byte by byte (R177 to R179), the taking and examination of
requests (R180, R181), how a request command reaches its block, the transmit arbiter (R184, R185), and
the effects of Soft Reset (R189). -/

namespace Sys2Proof.Machine

/-! ## Taking and examining a request (R180, R181) -/

/-- R181: the link's examination of a request: a type it does not know or a wrong payload length is
refused; otherwise the request is handed to the block that owns its type. -/
def examineMessage (m : Message) : Stage :=
  match expectedLength m with
  | none => .replyPending (.refuse .unknownType m.type.toNat)
  | some n =>
    if m.payload.length = n then .handed
    else .replyPending (.refuse .badLength (min n 0xFFFF))

/-- R180: when no request is current, the oldest complete message is taken, its place freed, and
examined. -/
def Link.takeNext (l : Link) : Link :=
  match l.current, l.buffer with
  | none, m :: rest => { l with buffer := rest, current := some ⟨m, examineMessage m⟩ }
  | none, [] => l
  | some _, _ => l

/-- R178: a message that has been received whole is held in the place it took, and taken as the current
request if none is current. -/
def Link.deliver (m : Message) (l : Link) : Link :=
  Link.takeNext { l with buffer := l.buffer ++ [m] }

/-- R178, R179: a whole message arrives: refused for overrun while both places are taken, discarded for
a length field above 8,200, otherwise held. A request command that arrives while another message is in
reception is taken or refused beside it, as a whole message, and that message's reception goes on: what no
host can bring, and the model's choice (log 36). -/
def State.arrive (m : Message) (s : State) : State :=
  if Config.bufferPlaces ≤ s.link.places then s.setLinkFlag .overrun
  else if Config.maxPayload < m.payload.length then s.setLinkFlag .framing
  else { s with link := s.link.deliver m }

/-! ## Reception byte by byte (R177 to R179) -/

/-- The receiver takes another stand. -/
def State.setReceiver (r : Receiver) (s : State) : State := { s with link := { s.link with receiver := r } }

/-- What follows the last payload byte to come. -/
def payloadStand (type tag : Byte) (left : Nat) (got : List Byte) : Receiver :=
  if left = 0 then .atCheck ⟨type, tag, got.reverse⟩ else .atPayload type tag left got

/-- R177 to R179: one byte on the receive pair. -/
def State.receiveByte (s : State) (b : Byte) : State :=
  match s.link.receiver with
  | .hunting =>
    if b ≠ startByte then s
    else if Config.bufferPlaces ≤ s.link.places then s.setLinkFlag .overrun
    else s.setReceiver .atType
  | .atType => s.setReceiver (.atTag b)
  | .atTag type => s.setReceiver (.atLength type b)
  | .atLength type tag => s.setReceiver (.atLength2 type tag b)
  | .atLength2 type tag lo =>
    let n := (halfOf lo b).toNat
    if Config.maxPayload < n then (s.setReceiver .hunting).setLinkFlag .framing
    else s.setReceiver (payloadStand type tag n [])
  | .atPayload type tag left got => s.setReceiver (payloadStand type tag (left - 1) (b :: got))
  | .atCheck m => s.setReceiver (.atCheck2 m b)
  | .atCheck2 m lo =>
    let s' := s.setReceiver .hunting
    if halfOf lo b = crc16 m.covered then { s' with link := s'.link.deliver m }
    else s'.setLinkFlag .crc

/-- R177: bytes on the receive pair, in the order they arrive. -/
def State.receiveBytes (bytes : List Byte) (s : State) : State := bytes.foldl State.receiveByte s

/-! ## How a command reaches its block -/

/-- The outcome of every command: the next state. -/
abbrev Step := Host.Outcome State Fault Refusal

/-- An event of the recorder or of the part: while the RESET pin is asserted the part holds every block
in its reset state and the event has no effect (R188; log 10). -/
def event (effect : State → State) (s : State) : Step :=
  .next (if s.resetPin then s else effect s)

/-- R180: the request is the current one and is with the block that owns it. -/
def State.isHanded (i : Instr) (s : State) : Bool :=
  match s.link.current with
  | some ⟨m, .handed⟩ => decide (m.decode = some i)
  | some ⟨_, .waiting⟩ | some ⟨_, .replyPending _⟩ | some ⟨_, .replySending⟩ | none => false

/-- R180, R181: how a request command is carried out (log 4). Where the request is current and with its
block, the block examines it. Otherwise the command is the arrival of the request's message: where no
request was current it is taken, examined by the link and, if it passes, carried out by its block at
once; where another request is current it waits in the receive buffer, or is discarded as R179 gives. -/
def State.request (i : Instr) (block : State → State) (s : State) : State :=
  if s.isHanded i then block s
  else match i.encode with
    | none => s
    | some m =>
      let t := s.arrive m
      if s.link.current = none ∧ t.link.current = some ⟨m, .handed⟩ then block t else t

/-- A host request as a command. -/
def carryOut (i : Instr) (block : State → State) (s : State) : Step := event (State.request i block) s

/-! ## The transmit arbiter (R184, R185) -/

/-- R170: the entry at the unsent-notice cursor. -/
def SpoilLog.cursorEntry (l : SpoilLog) : Option SpoilEntry :=
  if l.unsent = 0 then none else l.entries[l.entries.length - l.unsent]?

/-- R185: a notice of a flag class, with the content of the state at its beginning. -/
def State.flagNotice (c : FlagClass) (s : State) : Transmission :=
  let content := match c with
    | .halt => haltRecordBytes s.run.halt
    | .scan => s.scan.content
    | .monitor => s.monitor.content
    | .lines => s.pins.content
  ⟨.flag c false, noticeMessage c.code content⟩

/-- R184: the first pending notice in class order HALT, SPOIL, JOB_RESULT, SCAN, MONITOR, LINES. -/
def State.firstNotice (s : State) : Option Transmission :=
  if s.link.notices.halt then some (s.flagNotice .halt)
  else match s.log.cursorEntry with
    | some e => some ⟨.spoil false, noticeMessage 2 e.record⟩
    | none =>
      match s.jobs.results with
      | j :: _ => some ⟨.jobResult, noticeMessage 3 j.record⟩
      | [] =>
        if s.link.notices.scan then some (s.flagNotice .scan)
        else if s.link.notices.monitor then some (s.flagNotice .monitor)
        else if s.link.notices.lines then some (s.flagNotice .lines)
        else none

/-- R184: the arbiter chooses: the reply to the current request if it is pending, else the first
pending notice. -/
def State.choose (s : State) : State :=
  match s.link.current with
  | some ⟨m, .replyPending r⟩ =>
    { s with link := { s.link with
        current := some ⟨m, .replySending⟩
        transmitter := some ⟨.reply r, r.message m⟩ } }
  | some ⟨_, .handed⟩ | some ⟨_, .waiting⟩ | some ⟨_, .replySending⟩ | none =>
    { s with link := { s.link with transmitter := s.firstNotice } }

/-- R176, R184: the arbiter's moment: with the transmitter idle and HRDY asserted it chooses. -/
def State.startTransmission (hrdy : Bool) (s : State) : State :=
  let s1 := { s with link := { s.link with hrdy := hrdy } }
  if s.link.transmitter = none ∧ hrdy then s1.choose else s1

/-! ## Soft Reset (R86, R114, R189) -/

/-- R189 step 1, R86, R114: a frame in EXPOSING is spoiled, and the run halts with SOFT_RESET in any
case. -/
def State.softResetRun (s : State) : State :=
  match s.seq.phase with
  | .exposing => s.spoil .softReset s.seq.lineCounter none
  | .preparing | .between => s.halt .softReset

/-- R189 step 2, R23: every slot becomes EMPTY without a notice, and every use count becomes 0. -/
def State.dropJobs (s : State) : State :=
  { s with
    jobs := ⟨[], []⟩
    planes := s.planes.map fun e => (e.1, { e.2 with use := 0 })
    curves := s.curves.map fun e => (e.1, { e.2 with use := 0 }) }

/-- R135: a moving transport becomes OPEN with both timers stopped; any other state is kept. -/
def Transport.softReset (t : Transport) : Transport :=
  if t.state = .advancing ∨ t.state = .settling then
    { t with state := .opened, pullDownTimer := none, settleTimer := none, settleEnds := none, series := none }
  else t

/-- R169: breach counter, frame sum and frame count become 0, flags are cleared but a present
CLOCK_LOST; the rest is kept. -/
def MonitorChannel.softReset (c : MonitorChannel) : MonitorChannel :=
  { c with breaches := 0, sum := 0, count := 0, flags := MonitorFlags.afterSoftReset c }

/-- R189 step 3: each block takes its Soft Reset values. -/
def State.softResetBlocks (s : State) : State :=
  { s with
    transport := s.transport.softReset
    lasers := Rgb.same .off
    monitor := { s.monitor with channels := s.monitor.channels.map MonitorChannel.softReset } }

/-- R189 step 4: both places are cleared, and the SCAN, MONITOR and LINES flags and the link flags. The
HALT flag and the mask are kept. -/
def State.softResetLink (s : State) : State :=
  { s with link := { s.link with
      buffer := []
      notices := ⟨s.link.notices.halt, false, false, false⟩
      flags := ⟨false, false, false⟩ } }

/-- R189: the effects of Soft Reset, in order. -/
def State.softReset (s : State) : State :=
  s.softResetRun.dropJobs.softResetBlocks.softResetLink

/-! ## The end of a transmission (R180, R185) -/

/-- Whether the reply now ending is the ACCEPT of a Soft Reset (R189). -/
def State.endsSoftReset (s : State) (r : Reply) : Bool :=
  match s.link.current, r with
  | some c, .accept _ => decide (c.msg.type = 0x3E)
  | some _, .refuse .. => false
  | none, _ => false

/-- R180, R189: the last byte of a reply: the request is complete, the effects of a Soft Reset take
hold, and the next message is taken. -/
def State.endReply (r : Reply) (s : State) : State :=
  let s1 := { s with link := { s.link with current := none } }
  let s2 := if s.endsSoftReset r then s1.softReset else s1
  { s2 with link := s2.link.takeNext }

/-- R3, R172, R185: the last byte of a notice: its flag is cleared unless it was raised again, the
cursor moves on unless the entry was taken, or the RESULT slot becomes EMPTY. -/
def State.endTransmission (t : Transmission) (s : State) : State :=
  let s1 := { s with link := { s.link with transmitter := none } }
  match t.sending with
  | .reply r => s1.endReply r
  | .flag c again => { s1 with link := { s1.link with notices := s1.link.notices.set c again } }
  | .spoil removed => { s1 with log := { s1.log with unsent := if removed then s1.log.unsent else s1.log.unsent - 1 } }
  | .jobResult => { s1 with jobs := { s1.jobs with results := s1.jobs.results.tail } }

end Sys2Proof.Machine
end

