-- ==== Sys2Proof/Machine/Curves.lean ====
section
/-! DEFINITION. The requests of Curve Memory and Set Drive Options (R49 to R61). -/

namespace Sys2Proof.Machine

/-- R49: the set number is checked first. -/
def withSet (set : Byte) (block : Nat → State → State) (s : State) : State :=
  if Config.curveSets ≤ set.toNat then s.answer (.refuse .badValue 1) else block set.toNat s

/-- The use count of a set; 0 where it is EMPTY. -/
def State.curveUse (n : Nat) (s : State) : Nat := ((Table.get s.curves n).map CurveSet.use).getD 0

/-- R50, R54: the set must be at use count 0. -/
def freeCurveChecks (n : Nat) (s : State) : List Check := [(decide (0 < s.curveUse n), .inUse, s.curveUse n)]

/-- R50: Begin Curve: LOADING with all cursors 0. -/
def beginCurveBlock (set : Byte) (s : State) : State :=
  withSet set (fun n s => s.examine (freeCurveChecks n s) fun s =>
    State.accept [] { s with curves := Table.put s.curves n ⟨false, Rgb.same [], 0⟩ }) s

/-- BEGIN_CURVE (R50). -/
def execBeginCurve (rt set : Byte) (s : State) : Step := carryOut (.beginCurve rt set) (beginCurveBlock set) s

/-- R48: the entry of a wire entry. -/
def WireEntry.entry (e : WireEntry) : DriveEntry := ⟨e.level.toNat, e.duty.toNat⟩

/-- R51 check 7: the place in the request of the first entry out of range. -/
def firstBadEntry (es : List WireEntry) : Option Nat :=
  es.findIdx? fun e => decide (4095 < e.level.toNat ∨ 16 < e.duty.toNat)

/-- The cursor of a channel of a set (R47). -/
def State.cursor (n : Nat) (ch : Channel) (s : State) : Nat :=
  ((Table.get s.curves n).map fun c => (c.entries.get ch).length).getD 0

/-- R51: the checks of Curve Data, from the second on. -/
def curveDataChecks (n : Nat) (channel : Byte) (first count : Half) (es : List WireEntry) (s : State) :
    List Check :=
  let cursor := s.cursor n ((channelOf channel).getD .red)
  let loading := (Table.get s.curves n).any fun c => !c.ready
  [ ((channelOf channel).isNone, .badValue, 2),
    (decide (count.toNat < 1 ∨ Config.curveChunk < count.toNat), .badValue, 3),
    (!loading, .notReady, 0),
    (decide (first.toNat ≠ cursor), .outOfOrder, cursor),
    (decide (Config.curveEntries < cursor + count.toNat), .bounds, cursor + count.toNat - Config.curveEntries),
    ((firstBadEntry es).isSome, .badValue, 0x8000 + first.toNat + (firstBadEntry es).getD 0) ]

/-- R52: the entries are stored at the channel's cursor, which rises by their number. -/
def CurveSet.load (ch : Channel) (es : List WireEntry) (c : CurveSet) : CurveSet :=
  { c with entries := c.entries.set ch (c.entries.get ch ++ es.map WireEntry.entry) }

/-- R51, R52: Curve Data. -/
def curveDataBlock (set channel : Byte) (first count : Half) (es : List WireEntry) (s : State) : State :=
  withSet set (fun n s => s.examine (curveDataChecks n channel first count es s) fun s =>
    let ch := (channelOf channel).getD .red
    let s1 := { s with curves := Table.modify s.curves n (CurveSet.load ch es) }
    s1.accept (u16 (s1.cursor n ch))) s

/-- CURVE_DATA (R51). -/
def execCurveData (rt set channel : Byte) (first count : Half) (entries : List WireEntry) (s : State) : Step :=
  carryOut (.curveData rt set channel first count entries) (curveDataBlock set channel first count entries) s

/-- R48: the exposure product. -/
def DriveEntry.product (e : DriveEntry) : Nat := e.level * e.duty

/-- R53 check 2: the first entry, from number `v + 1` on, whose exposure product is less than that of the
entry before it. -/
def firstDecrease : Nat → List DriveEntry → Option Nat
  | _, [] => none
  | _, [_] => none
  | v, a :: b :: rest => if b.product < a.product then some (v + 1) else firstDecrease (v + 1) (b :: rest)

/-- R53 check 2 over the three channels: channel × 4096 + entry. -/
def CurveSet.decrease (c : CurveSet) : Option Nat :=
  match firstDecrease 0 c.entries.red with
  | some v => some v
  | none =>
    match firstDecrease 0 c.entries.green with
    | some v => some (4096 + v)
    | none => (firstDecrease 0 c.entries.blue).map (8192 + ·)

/-- R53 check 1: the first channel whose cursor is below 4096. -/
def CurveSet.incomplete (c : CurveSet) : Option Channel :=
  c.entries.first fun es => decide (es.length < Config.curveEntries)

/-- R53: Commit Curve. -/
def commitCurveBlock (set : Byte) (s : State) : State :=
  withSet set (fun n s =>
    match Table.get s.curves n with
    | none => s.answer (.refuse .notReady 0xFFFF)
    | some c =>
      s.examine
        [ (c.ready, .notReady, 0xFFFF),
          (c.incomplete.isSome, .notReady, (c.incomplete.map Channel.code).getD 0),
          (c.decrease.isSome, .notMonotonic, c.decrease.getD 0) ]
        fun s => State.accept [] { s with curves := Table.put s.curves n { c with ready := true } }) s

/-- COMMIT_CURVE (R53). -/
def execCommitCurve (rt set : Byte) (s : State) : Step := carryOut (.commitCurve rt set) (commitCurveBlock set) s

/-- R54: Discard Curve: EMPTY. -/
def discardCurveBlock (set : Byte) (s : State) : State :=
  withSet set (fun n s => s.examine (freeCurveChecks n s) fun s =>
    State.accept [] { s with curves := Table.erase s.curves n }) s

/-- DISCARD_CURVE (R54). -/
def execDiscardCurve (rt set : Byte) (s : State) : Step := carryOut (.discardCurve rt set) (discardCurveBlock set) s

/-- R55: state, three cursors and use count of a set. -/
def State.curveReport (n : Nat) (s : State) : List Byte :=
  u8 (curveStateCode (Table.get s.curves n)) ++ u16 (s.cursor n .red) ++ u16 (s.cursor n .green) ++
    u16 (s.cursor n .blue) ++ u8 (s.curveUse n)

/-- R55: Query Curve. -/
def queryCurveBlock (set : Byte) (s : State) : State := withSet set (fun n s => s.accept (s.curveReport n)) s

/-- QUERY_CURVE (R55). -/
def execQueryCurve (rt set : Byte) (s : State) : Step := carryOut (.queryCurve rt set) (queryCurveBlock set) s

/-- R61: Set Drive Options. -/
def setDriveOptionsBlock (placement : Byte) (s : State) : State :=
  s.examine
    [ (decide (s.run.state ≠ .stopped), .busy, 0),
      ((placementOf placement).isNone, .badValue, 1) ]
    fun s => State.accept [] { s with placement := (placementOf placement).getD s.placement }

/-- SET_DRIVE_OPTIONS (R61). -/
def execSetDriveOptions (rt placement : Byte) (s : State) : Step :=
  carryOut (.setDriveOptions rt placement) (setDriveOptionsBlock placement) s

end Sys2Proof.Machine
end

