-- ==== Sys2Proof/Machine/HostLink.lean ====
section
/-! DEFINITION. Take Spoil Entries, Get Status, Set Notices and Soft Reset, the events of the serial link,
and hardware reset (R170 to R193). -/

namespace Sys2Proof.Machine

/-! ## Take Spoil Entries -/

/-- R172, R173: an entry whose notice is being sent is removed with the oldest `k`. -/
def noteRemoval (k : Nat) (l : SpoilLog) (t : Transmission) : Transmission :=
  match t.sending with
  | .spoil removed => { t with sending := .spoil (removed || decide (l.entries.length - l.unsent < k)) }
  | .reply _ | .flag .. | .jobResult => t

/-- R173: the `n` oldest entries, or as many as there are, are removed and returned. -/
def State.takeEntries (n : Nat) (s : State) : State :=
  let k := min n s.log.entries.length
  let rest := s.log.entries.drop k
  State.accept (u8 k ++ (s.log.entries.take k).flatMap SpoilEntry.record ++ u8 rest.length)
    { s with
      log := ⟨rest, min s.log.unsent rest.length⟩
      link := { s.link with transmitter := s.link.transmitter.map (noteRemoval k s.log) } }

/-- R173: Take Spoil Entries. -/
def takeSpoilEntriesBlock (count : Byte) (s : State) : State :=
  s.examine [(decide (count.toNat < 1 ∨ 8 < count.toNat), .badValue, 1)] (State.takeEntries count.toNat)

/-- TAKE_SPOIL_ENTRIES (R173). -/
def execTakeSpoilEntries (rt count : Byte) (s : State) : Step :=
  carryOut (.takeSpoilEntries rt count) (takeSpoilEntriesBlock count) s

/-! ## Get Status, Set Notices, Soft Reset -/

/-- R187: the flags that Get Status clears after the record has been built. -/
def State.clearReported (s : State) : State :=
  { s with
    link := { s.link with flags := ⟨false, false, false⟩ }
    pins := { s.pins with changed := Lines.none }
    monitor := s.monitor.clearReported }

/-- R187: Get Status. -/
def getStatusBlock (s : State) : State := s.clearReported.accept s.statusRecord

/-- GET_STATUS (R187). -/
def execGetStatus (rt : Byte) (s : State) : Step := carryOut (.getStatus rt) getStatusBlock s

/-- R186: a class whose mask bit is clear has its pending flag cleared. -/
def Link.dropDisabled (c : FlagClass) (l : Link) : Link := if l.mask.enables c then l else l.lower c

/-- R186: the mask is set, and the flags of disabled classes are cleared. -/
def Link.setMask (m : NoticeMask) (l : Link) : Link :=
  ((Link.dropDisabled .scan { l with mask := m }).dropDisabled .monitor).dropDisabled .lines

/-- R186: Set Notices. -/
def setNoticesBlock (mask : Byte) (s : State) : State :=
  s.examine [((noticeMaskOf mask).isNone, .badValue, 1)] fun s =>
    let m := (noticeMaskOf mask).getD s.link.mask
    State.accept m.byte { s with link := s.link.setMask m }

/-- SET_NOTICES (R186). -/
def execSetNotices (rt mask : Byte) (s : State) : Step := carryOut (.setNotices rt mask) (setNoticesBlock mask) s

/-- SOFT_RESET (R189): the reply is sent first; the effects take hold at its end (`State.endReply`). -/
def execSoftReset (rt : Byte) (s : State) : Step := carryOut (.softReset rt) (State.accept []) s

/-! ## Events of the link -/

/-- MESSAGE_RECEIVED (R178): the bytes that the bits on the receive pair carry, each least significant bit first
(`lineBytes`, R176; log 6). -/
def execMessageReceived (bytes : List Byte) (s : State) : Step := event (State.receiveBytes bytes) s

/-- R179: more than 100 µs passes between two bytes of a message. -/
def gapTimeout (s : State) : State :=
  if s.link.receiver = .hunting then s else (s.setReceiver .hunting).setLinkFlag .framing

/-- INTER_BYTE_GAP_TIMEOUT (R179). -/
def execInterByteGapTimeout (s : State) : Step := event gapTimeout s

/-- TRANSMIT_START (R184), with HRDY as the transmitter finds it. -/
def execTransmitStart (hrdy : Bool) (s : State) : Step := event (State.startTransmission hrdy) s

/-- R180: the last byte of the message in transmission is transmitted. -/
def messageTransmitted (s : State) : State :=
  match s.link.transmitter with
  | some t => s.endTransmission t
  | none => s

/-- MESSAGE_TRANSMITTED (R180). -/
def execMessageTransmitted (s : State) : Step := event messageTransmitted s

/-! ## Hardware reset -/

/-- HARDWARE_RESET (R188): the RESET pin is asserted. Every block takes its reset state; the input levels
follow the lines. -/
def execHardwareReset (s : State) : Step :=
  .next (State.afterReset true s.link.rate s.link.hrdy s.pins.levels (s.freeEpoch + 1) s.pending)

/-- R176: the rate of the strap pins. -/
def rateOf : Bool → Bool → LinkRate
  | false, false => .mbit50
  | false, true => .mbit100
  | true, _ => .mbit200

/-- RESET_RELEASE (R176): the RESET pin is released and the straps are read. -/
def execResetRelease (rate1 rate0 : Bool) (s : State) : Step :=
  .next (if s.resetPin then { s with resetPin := false, link := { s.link with rate := rateOf rate1 rate0 } } else s)

end Sys2Proof.Machine
end

