-- ==== Sys2Proof/Machine/Jobs.lean ====
section
/-! DEFINITION. Queue Job, Cancel Job and Query Job (R7 to R15). -/

namespace Sys2Proof.Machine

/-! ## Queue Job -/

/-- R7 item 3: the presence set each kind asks for, as bits planes, curve set, flash values. -/
def presenceOf (kind : Nat) : Nat :=
  match kind with
  | 0 => 3
  | 1 => 6
  | _ => 0

/-- R7: the rows of the payload check: whether the item breaks its rule, and its number. An item whose
presence mark is clear is not examined. -/
def brokenItems (p : QueueJobItems) : List (Bool × Nat) :=
  let planes := p.presence.getLsbD 0
  let curve := p.presence.getLsbD 1
  let flash := p.presence.getLsbD 2
  [ (decide (p.tag.toNat = 0), 1),
    (decide (2 < p.kind.toNat), 2),
    (decide (p.presence.toNat % 8 ≠ presenceOf p.kind.toNat), 3),
    (planes && (Selector.ofWire p.selectors.red).isNone, 4),
    (planes && (Selector.ofWire p.selectors.green).isNone, 5),
    (planes && (Selector.ofWire p.selectors.blue).isNone, 6),
    (curve && decide (Config.curveSets ≤ p.curveSet.toNat), 7),
    (flash && decide (4096 ≤ p.flash.red.toNat), 8),
    (flash && decide (4096 ≤ p.flash.green.toNat), 9),
    (flash && decide (4096 ≤ p.flash.blue.toNat), 10),
    (decide (p.release.toNat ≠ 0 ∧ p.kind.toNat ≠ 0), 11) ]

/-- R7: the number of the first item that breaks its rule. -/
def badItem (p : QueueJobItems) : Option Nat :=
  ((brokenItems p).find? fun row => row.1).map Prod.snd

/-- R4, R5: the work a well-formed payload describes. -/
def queuedWork (p : QueueJobItems) : Work :=
  match p.kind.toNat with
  | 0 =>
    match Selector.ofWire p.selectors.red, Selector.ofWire p.selectors.green, Selector.ofWire p.selectors.blue with
    | some r, some g, some b => .expose ⟨r, g, b⟩ p.curveSet.toNat (decide (p.release.toNat ≠ 0))
    | _, _, _ => .blank
  | 1 => .flash p.curveSet.toNat (p.flash.map BitVec.toNat)
  | _ => .blank

/-- R5: the record at acceptance. -/
def queuedJob (p : QueueJobItems) : Job where
  tag := p.tag.toNat
  work := queuedWork p
  repeatCount := countOf p.repeatCount
  framesDone := 0
  spoiled := 0
  suspect := 0
  saturated := 0
  positions := none
  outcome := none

/-- R8 check 5: the job's curve set is not READY. -/
def State.curveNotReady (s : State) (w : Work) : Bool :=
  match w.curve with
  | some n =>
    match Table.get s.curves n with
    | some c => !c.ready
    | none => true
  | none => false

/-- R8 check 6: the first selector, in the order red, green, blue, that names an UNDEFINED descriptor. -/
def State.undefinedPlane (s : State) (w : Work) : Option Selector :=
  match w with
  | .expose p _ _ => p.toList.find? fun sel => (Table.get s.planes sel.wire).isNone
  | .flash .. | .blank => none

/-- R8 check 7: the first selector whose plane does not fit the raster. -/
def State.misfitPlane (s : State) (w : Work) : Option Selector :=
  match w with
  | .expose p _ _ => p.toList.find? fun sel =>
    match Table.get s.planes sel.wire with
    | some d => decide (d.width ≠ s.rasterWidth ∨ d.limit < s.rasterLines)
    | none => false
  | .flash .. | .blank => none

/-- R8: whether a LIVE or RESULT slot holds the tag. -/
def JobStore.holdsTag (j : JobStore) (tag : Nat) : Bool :=
  j.live.any (fun k => decide (k.tag = tag)) || j.results.any (fun k => decide (k.tag = tag))

/-- R8: the checks of Queue Job, in order. -/
def queueJobChecks (p : QueueJobItems) (s : State) : List Check :=
  [ (s.jobs.isFull, .full, s.jobs.results.length),
    (s.reel.isNone, .noReel, 0),
    ((badItem p).isSome, .badValue, (badItem p).getD 0),
    (s.jobs.holdsTag p.tag.toNat, .duplicateTag, p.tag.toNat),
    (s.curveNotReady (queuedWork p), .notReady, p.curveSet.toNat),
    ((s.undefinedPlane (queuedWork p)).isSome, .notDefined, ((s.undefinedPlane (queuedWork p)).map Selector.wire).getD 0),
    ((s.misfitPlane (queuedWork p)).isSome, .bounds, ((s.misfitPlane (queuedWork p)).map Selector.wire).getD 0) ]

/-- The counts that Queue Job and Cancel Job report: LIVE jobs and RESULT slots (R9, R13). -/
def JobStore.counts (j : JobStore) : List Byte := u8 j.live.length ++ u8 j.results.length

/-- R9 steps 1 to 4: the job joins the tail, its use counts are claimed, and the reply carries the
counts after the acceptance. -/
def State.acceptJob (j : Job) (s : State) : State :=
  let s1 := { s with jobs := { s.jobs with live := s.jobs.live ++ [j] } }
  (s1.claimUses j.work).accept s1.jobs.counts

/-- R11: the run is waiting in BETWEEN for a head job. -/
def State.isWaiting (s : State) : Bool :=
  decide (s.run.state = .running ∧ s.seq.phase = .between ∧ s.jobs.live = [])

/-- R8, R9, R11: Queue Job is examined by the Job Store. A new head starts a waiting run's next frame. -/
def queueJobBlock (p : QueueJobItems) (s : State) : State :=
  s.examine (queueJobChecks p s) fun s =>
    if s.isWaiting then (s.acceptJob (queuedJob p)).between else s.acceptJob (queuedJob p)

/-- QUEUE_JOB (R9). -/
def execQueueJob (rt : Byte) (p : QueueJobItems) (s : State) : Step :=
  carryOut (.queueJob rt p) (queueJobBlock p) s

/-! ## Cancel Job and Query Job -/

/-- R13, R18: Cancel Job. The job ends, its Job Result notice becoming pending, and the reply becomes pending in one
step, so that the arbiter never chooses between the two: R18 and R184 allow it to, and the notice then to go first (the
model's choice, log 37). -/
def cancelJobBlock (tag : Half) (s : State) : State :=
  match s.jobs.live.find? fun j => decide (j.tag = tag.toNat) with
  | none => s.answer (.refuse .noSuchJob 0)
  | some j =>
    if s.headTag = some tag.toNat ∧ (s.run.state = .running ∨ s.run.state = .pausing) then
      s.answer (.refuse .busy 0)
    else
      let s1 := s.endJob .cancelled j
      s1.accept s1.jobs.counts

/-- CANCEL_JOB (R13). -/
def execCancelJob (rt : Byte) (tag : Half) (s : State) : Step :=
  carryOut (.cancelJob rt tag) (cancelJobBlock tag) s

/-- R15: slot state, place and record of the job a tag names. -/
def JobStore.report (store : JobStore) (tag : Nat) : Option (List Byte) :=
  let isIt (j : Job) : Bool := decide (j.tag = tag)
  match store.live.find? isIt with
  | some j => some (u8 0 ++ u8 (store.live.findIdx isIt) ++ j.record)
  | none =>
    match store.results.find? isIt with
    | some j => some (u8 1 ++ u8 (store.results.findIdx isIt) ++ j.record)
    | none => none

/-- R15: Query Job reports the job without changing it. -/
def queryJobBlock (tag : Half) (s : State) : State :=
  match s.jobs.report tag.toNat with
  | some items => s.accept items
  | none => s.answer (.refuse .noSuchJob 0)

/-- QUERY_JOB (R15). -/
def execQueryJob (rt : Byte) (tag : Half) (s : State) : Step :=
  carryOut (.queryJob rt tag) (queryJobBlock tag) s

end Sys2Proof.Machine
end

