-- ==== Sys2Proof/Machine/Film.lean ====
section
/-! DEFINITION. The Transport Controller: Open Reel, Close Reel, Register Gate, Advance Frames, Clear
Transport, Set Transport Timing, the perforation and timer events, and the film sensors (R115 to
R135). -/

namespace Sys2Proof.Machine

/-! ## The reel -/

/-- R116: the checks of Open Reel, in order. -/
def openReelChecks (p : OpenReelItems) (s : State) : List Check :=
  [ (decide (s.run.state ≠ .stopped), .busy, 0),
    (decide (s.transport.state = .advancing ∨ s.transport.state = .settling), .busy, 1),
    (s.reel.isSome, .reelOpen, 0),
    (decide (p.capacity.toNat = 0), .badValue, 1),
    (decide (p.capacity.toNat ≤ p.start.toNat), .badValue, 2),
    (decide (p.perforations.toNat < 2 ∨ 8 < p.perforations.toNat), .badValue, 3),
    (decide (p.lines.toNat < 1 ∨ 4096 < p.lines.toNat), .badValue, 4),
    (decide (p.width.toNat < 256 ∨ 4096 < p.width.toNat ∨ p.width.toNat % 256 ≠ 0), .badValue, 5),
    (decide (20000 < p.offset.toNat), .badValue, 6) ]

/-- The reel table's descriptors are UNDEFINED (R44). -/
def dropReelPlanes (t : Table Plane) : Table Plane := t.filter fun e => decide (e.1 < 0x8000)

/-- R117: the reel is opened. -/
def State.openReel (p : OpenReelItems) (s : State) : State :=
  State.accept []
    { s with
      reel := some ⟨p.capacity.toNat, p.perforations.toNat, p.lines.toNat, p.width.toNat, p.offset.toNat⟩
      transport := { s.transport with position := p.start.toNat }
      planes := dropReelPlanes s.planes }

/-- R116, R117: Open Reel. -/
def openReelBlock (p : OpenReelItems) (s : State) : State := s.examine (openReelChecks p s) (State.openReel p)

/-- OPEN_REEL (R117). -/
def execOpenReel (rt : Byte) (p : OpenReelItems) (s : State) : Step := carryOut (.openReel rt p) (openReelBlock p) s

/-- R118: the checks of Close Reel, in order. -/
def closeReelChecks (s : State) : List Check :=
  [ (decide (s.run.state ≠ .stopped), .busy, 0),
    (decide (s.transport.state = .advancing ∨ s.transport.state = .settling), .busy, 1),
    (s.reel.isNone, .noReel, 0),
    (decide (0 < s.log.entries.length), .logNotEmpty, s.log.entries.length) ]

/-- R19, R118 step 1: every LIVE job ends FLUSHED, head first. -/
def State.flush (s : State) : State := s.jobs.live.foldl (fun (t : State) (j : Job) => t.endJob .flushed j) s

/-- R118: the reel is closed; the reply carries the number of jobs flushed, and is pending in the step that makes the
Job Result notices pending, so that none of them goes first (the model's choice, log 37). -/
def State.closeReel (s : State) : State :=
  let s1 := s.flush
  State.accept (u8 s.jobs.live.length) { s1 with planes := dropReelPlanes s1.planes, reel := none }

/-- R118: Close Reel. -/
def closeReelBlock (s : State) : State := s.examine (closeReelChecks s) State.closeReel

/-- CLOSE_REEL (R118). -/
def execCloseReel (rt : Byte) (s : State) : Step := carryOut (.closeReel rt) closeReelBlock s

/-! ## Register Gate, timings, Clear Transport -/

/-- R128: the checks of Register Gate, in order. -/
def registerGateChecks (gate : Byte) (s : State) : List Check :=
  [ ((gateOf gate).isNone, .badValue, 1),
    (decide (s.transport.state ≠ .opened), .busy, 0),
    (!s.pins.levels.tensionOk, .transportFault, 2) ]

/-- R124, R128: the gate closes and the settle begins. -/
def Transport.startSettle (ends : SettleEnds) (t : Transport) : Transport :=
  { t with state := .settling, pullDownTimer := none, settleTimer := some t.settle, settleEnds := some ends }

/-- R128: Register Gate. -/
def registerGateBlock (gate : Byte) (s : State) : State :=
  s.examine (registerGateChecks gate s) fun s =>
    State.accept []
      { s with transport := s.transport.startSettle (.registerGate ((gateOf gate).getD .used)) }

/-- REGISTER_GATE (R128). -/
def execRegisterGate (rt gate : Byte) (s : State) : Step := carryOut (.registerGate rt gate) (registerGateBlock gate) s

/-- R132: Set Transport Timing. -/
def setTransportTimingBlock (timeout : Half) (settle : Byte) (s : State) : State :=
  s.examine
    [ (decide (s.run.state ≠ .stopped), .busy, 0),
      (decide (timeout.toNat < 10 ∨ 2000 < timeout.toNat), .badValue, 1),
      (decide (settle.toNat < 1 ∨ 250 < settle.toNat), .badValue, 2) ]
    fun s => State.accept []
      { s with transport := { s.transport with timeout := timeout.toNat, settle := settle.toNat } }

/-- SET_TRANSPORT_TIMING (R132). -/
def execSetTransportTiming (rt : Byte) (timeout : Half) (settle : Byte) (s : State) : Step :=
  carryOut (.setTransportTiming rt timeout settle) (setTransportTimingBlock timeout settle) s

/-- R133: whether the transport is in FAULT. -/
def TransportState.isFault : TransportState → Bool
  | .fault _ => true
  | .empty | .opened | .advancing | .settling | .registered => false

/-- R133: FAULT is left for OPEN, or for EMPTY without film; the reply carries the new state. -/
def State.clearTransport (s : State) : State :=
  let st : TransportState := if s.pins.levels.filmPresent then .opened else .empty
  State.accept (u8 st.code) { s with transport := { s.transport with state := st } }

/-- R133: Clear Transport. -/
def clearTransportBlock (s : State) : State :=
  s.examine [(!s.transport.state.isFault, .busy, 0)] State.clearTransport

/-- CLEAR_TRANSPORT (R133). -/
def execClearTransport (rt : Byte) (s : State) : Step := carryOut (.clearTransport rt) clearTransportBlock s

/-! ## Advance Frames -/

/-- R129: the checks of Advance Frames, in order. -/
def advanceFramesChecks (count : Byte) (s : State) : List Check :=
  let last := (s.reel.map fun r => r.capacity - 1).getD 0
  [ (decide (s.run.state ≠ .stopped ∨ s.transport.state ≠ .registered), .busy, 0),
    (s.reel.isNone, .noReel, 0),
    (decide (last < s.transport.position + countOf count), .endOfReel, last - s.transport.position) ]

/-- R130, R131: a series requests its next pull-down, with `x.done` registered so far. A refusal ends it
with REFUSE END_OF_REEL. -/
def State.nextPullDown (x : Series) (s : State) : State :=
  match s.pullDownAnswer with
  | .taken => ({ s with transport := { s.transport with series := some x } } : State).startPullDown
  | .endOfReel | .notRegistered =>
    ({ s with transport := { s.transport with series := none } } : State).answer (.refuse .endOfReel x.done)

/-- R129, R130: Advance Frames. The reply waits for the series. -/
def advanceFramesBlock (count : Byte) (s : State) : State :=
  s.examine (advanceFramesChecks count s) fun s => s.await.nextPullDown ⟨countOf count, 0⟩

/-- ADVANCE_FRAMES (R130). -/
def execAdvanceFrames (rt count : Byte) (s : State) : Step :=
  carryOut (.advanceFrames rt count) (advanceFramesBlock count) s

/-! ## Perforations and timers -/

/-- R124: a PERF pulse in ADVANCING is counted, and the P-th ends the movement. -/
def perfPulse (s : State) : State :=
  if s.transport.state = .advancing then
    let t := { s.transport with perfs := s.transport.perfs + 1 }
    if s.reel.any fun r => decide (t.perfs = r.perforations) then
      { s with transport := t.startSettle .pullDown }
    else { s with transport := t }
  else s

/-- PERF_PULSE (R124). -/
def execPerfPulse (s : State) : Step := event perfPulse s

/-- R124: the pull-down timer expires while the transport is still ADVANCING. -/
def pullDownTimerExpiry (s : State) : State :=
  if s.transport.state = .advancing then s.enterTransportFault .perfTimeout else s

/-- PULL_DOWN_TIMER_EXPIRY (R124). -/
def execPullDownTimerExpiry (s : State) : Step := event pullDownTimerExpiry s

/-- R130: after a pull-down of a series has registered, the next is requested or the series has ended. -/
def State.seriesRegistered (s : State) : State :=
  match s.transport.series with
  | none => s
  | some x =>
    if x.done + 1 = x.count then
      State.accept (u8 x.count ++ u16 s.transport.position)
        { s with transport := { s.transport with series := none } }
    else s.nextPullDown ⟨x.count, x.done + 1⟩

/-- R125: the film is registered. A pull-down raises the position and leaves the gate FRESH; a Register
Gate sets the frame state it named. The registration lets a series go on and a BLANK frame pass. -/
def State.register (s : State) : State :=
  let t := { s.transport with state := .registered, settleTimer := none, settleEnds := none }
  match s.transport.settleEnds with
  | some .pullDown =>
    (State.seriesRegistered { s with transport := { t with position := t.position + 1, gate := .fresh } }).passBlank
  | some (.registerGate g) => State.passBlank { s with transport := { t with gate := g } }
  | none => State.passBlank { s with transport := t }

/-- R125: the settle timer expires and GATE_CLOSED is examined. -/
def settleTimerExpiry (s : State) : State :=
  if s.transport.state = .settling then
    if s.pins.levels.gateClosed then s.register else s.enterTransportFault .gate
  else s

/-- SETTLE_TIMER_EXPIRY (R125). -/
def execSettleTimerExpiry (s : State) : Step := event settleTimerExpiry s

/-! ## Film sensors -/

/-- R120, R188: the lines take new levels. A change sets changed flags and raises LINES, and then acts;
while the RESET pin is asserted the levels follow the lines, and the transport follows FILM_PRESENT
(R134; log 10). -/
def lineChange (levels : Lines) (effect : State → State) (s : State) : Step :=
  .next <|
    if s.resetPin then { s with pins := ⟨levels, Lines.none⟩, transport := Transport.reset levels.filmPresent }
    else if levels = s.pins.levels then s
    else effect (s.setLevels levels)

/-- R121: FILM_PRESENT has changed. -/
def filmPresentEffect (level : Bool) (s : State) : State :=
  match s.transport.state, level with
  | .empty, true => { s with transport := { s.transport with state := .opened } }
  | .opened, false | .advancing, false | .settling, false | .registered, false =>
    s.enterTransportFault .filmLost
  | .empty, false | .opened, true | .advancing, true | .settling, true | .registered, true | .fault _, _ => s

/-- FILM_PRESENT_CHANGE (R121). -/
def execFilmPresentChange (level : Bool) (s : State) : Step :=
  lineChange { s.pins.levels with filmPresent := level } (filmPresentEffect level) s

/-- R121: TENSION_OK has changed. -/
def tensionOkEffect (level : Bool) (s : State) : State :=
  match s.transport.state, level with
  | .advancing, false | .settling, false | .registered, false => s.enterTransportFault .tension
  | .empty, false | .opened, false | .fault _, false | _, true => s

/-- TENSION_OK_CHANGE (R121). -/
def execTensionOkChange (level : Bool) (s : State) : Step :=
  lineChange { s.pins.levels with tensionOk := level } (tensionOkEffect level) s

/-- R121: GATE_CLOSED has changed. -/
def gateClosedEffect (level : Bool) (s : State) : State :=
  match s.transport.state, level with
  | .registered, false => s.enterTransportFault .gate
  | .empty, false | .opened, false | .advancing, false | .settling, false | .fault _, false | _, true => s

/-- GATE_CLOSED_CHANGE (R121). -/
def execGateClosedChange (level : Bool) (s : State) : Step :=
  lineChange { s.pins.levels with gateClosed := level } (gateClosedEffect level) s

/-- END_SENSOR_CHANGE (R121): it moves the transport to no state. -/
def execEndSensorChange (level : Bool) (s : State) : Step :=
  lineChange { s.pins.levels with endSensor := level } id s

end Sys2Proof.Machine
end

