-- ==== Sys2Proof/Machine/Lasers.lean ====
section
/-! DEFINITION. The Laser Drive Unit and the Power Monitor: Enable and Disable Lasers, Set Power Targets,
Read Monitor, the interlock and LASER_READY lines, the monitor clocks and the readings (R152 to
R169). -/

namespace Sys2Proof.Machine

/-! ## Laser channels -/

/-- The three channel states of a reply (R153, R155). -/
def laserBytes (l : Rgb LaserState) : List Byte := l.toList.flatMap fun st => u8 st.code

/-- R153: the checks of Enable Lasers, in order. -/
def enableLasersChecks (mask : Byte) (s : State) : List Check :=
  let named := (channelMaskOf mask).getD (Rgb.same false)
  let faulted := Rgb.first id (Rgb.zip (fun n st => n && decide (st = LaserState.fault)) named s.lasers)
  [ ((channelMaskOf mask).isNone, .badValue, 1),
    (!s.pins.levels.interlock, .interlock, 0),
    (s.monitor.targets.isNone, .notReady, 0xFFFF),
    (faulted.isSome, .notReady, (faulted.map Channel.code).getD 0) ]

/-- R153: a named channel in OFF goes to READY where its LASER_READY is asserted, else to WARMING. -/
def enabled (named ready : Bool) (st : LaserState) : LaserState :=
  match named, st with
  | true, .off => if ready then .ready else .warming
  | true, .warming | true, .ready | true, .fault | false, _ => st

/-- R153: Enable Lasers. -/
def enableLasersBlock (mask : Byte) (s : State) : State :=
  s.examine (enableLasersChecks mask s) fun s =>
    let named := (channelMaskOf mask).getD (Rgb.same false)
    let lasers := Rgb.zip (fun f st => f st) (Rgb.zip enabled named s.pins.levels.laserReady) s.lasers
    State.accept (laserBytes lasers) { s with lasers := lasers }

/-- ENABLE_LASERS (R153). -/
def execEnableLasers (rt mask : Byte) (s : State) : Step := carryOut (.enableLasers rt mask) (enableLasersBlock mask) s

/-- R155: Disable Lasers: each named channel goes to OFF. -/
def disableLasersBlock (mask : Byte) (s : State) : State :=
  s.examine
    [ (decide (s.run.state ≠ .stopped), .busy, 0),
      ((channelMaskOf mask).isNone, .badValue, 1) ]
    fun s =>
      let named := (channelMaskOf mask).getD (Rgb.same false)
      let lasers := Rgb.zip (fun n st => if n then LaserState.off else st) named s.lasers
      State.accept (laserBytes lasers) { s with lasers := lasers }

/-- DISABLE_LASERS (R155). -/
def execDisableLasers (rt mask : Byte) (s : State) : Step :=
  carryOut (.disableLasers rt mask) (disableLasersBlock mask) s

/-- R156: INTERLOCK has changed. Its opening blanks every channel, turns all OFF and meets the run; its
closing turns no channel on. -/
def interlockEffect (level : Bool) (s : State) : State :=
  if level then s
  else State.meetFault .interlock none { blankDrive s with lasers := Rgb.same .off }

/-- INTERLOCK_CHANGE (R156). -/
def execInterlockChange (level : Bool) (s : State) : Step :=
  lineChange { s.pins.levels with interlock := level } (interlockEffect level) s

/-- R154: a channel whose LASER_READY has changed from `old` to `new`. -/
def nextLaser (old new : Bool) (st : LaserState) : LaserState :=
  match old, new, st with
  | false, true, .warming => .ready
  | true, false, .ready => .fault
  | false, true, .off | false, true, .ready | false, true, .fault => st
  | true, false, .off | true, false, .warming | true, false, .fault => st
  | true, true, _ | false, false, _ => st

/-- R154: LASER_READY lines have changed from `old`. A channel that enters FAULT is blanked and meets the
run; of several at once the first in the order red, green, blue is named (R106). -/
def laserReadyEffect (old new : Rgb Bool) (s : State) : State :=
  let lasers := Rgb.zip (fun f st => f st) (Rgb.zip nextLaser old new) s.lasers
  let s1 := { s with lasers := lasers }
  match Rgb.first id (Rgb.zip (fun a b => decide (a ≠ b ∧ b = LaserState.fault)) s.lasers lasers) with
  | some ch => (blankDrive s1).meetFault .laserFault (some ch)
  | none => s1

/-- LASER_READY_CHANGE (R154), with the three levels after the change (log 22). -/
def execLaserReadyChange (levels : Rgb Bool) (s : State) : Step :=
  lineChange { s.pins.levels with laserReady := levels } (laserReadyEffect s.pins.levels.laserReady levels) s

/-! ## Settings and reports -/

/-- R166: the checks of Set Power Targets, in order. -/
def setPowerTargetsChecks (p : PowerItems) (s : State) : List Check :=
  let detail (base : Nat) (ch : Option Channel) : Nat := base + 3 * (ch.map Channel.code).getD 0
  let target := p.channels.first fun t => decide (t.target.toNat = 0)
  let soft := p.channels.first fun t => decide (t.soft.toNat < 1 ∨ 1024 < t.soft.toNat)
  let hard := p.channels.first fun t => decide (t.hard.toNat ≤ t.soft.toNat ∨ 2048 < t.hard.toNat)
  [ (decide (s.run.state ≠ .stopped), .busy, 0),
    (target.isSome, .badValue, detail 1 target),
    (soft.isSome, .badValue, detail 2 soft),
    (hard.isSome, .badValue, detail 3 hard),
    (decide (16 < p.hardCount.toNat), .badValue, 10),
    (decide (p.osr.toNat < 16 ∨ 256 < p.osr.toNat), .badValue, 11) ]

/-- R166: the values of a request; a hard count of 0 stands for 2. -/
def powerTargetsOf (p : PowerItems) : PowerTargets where
  channels := p.channels.map fun t => ⟨t.target.toNat, t.soft.toNat, t.hard.toNat⟩
  hardCount := if p.hardCount.toNat = 0 then 2 else p.hardCount.toNat
  osr := p.osr.toNat

/-- R166 steps 2 and 3 on one channel. -/
def MonitorChannel.retarget (c : MonitorChannel) : MonitorChannel :=
  { c with trim := Config.trimUnit, valid := false, breaches := 0 }

/-- R166: Set Power Targets. -/
def setPowerTargetsBlock (p : PowerItems) (s : State) : State :=
  s.examine (setPowerTargetsChecks p s) fun s =>
    State.accept []
      { s with monitor := ⟨some (powerTargetsOf p), s.monitor.channels.map MonitorChannel.retarget⟩ }

/-- SET_POWER_TARGETS (R166). -/
def execSetPowerTargets (rt : Byte) (p : PowerItems) (s : State) : Step :=
  carryOut (.setPowerTargets rt p) (setPowerTargetsBlock p) s

/-- R167: the eight bytes of one channel. -/
def MonitorChannel.report (c : MonitorChannel) : List Byte :=
  u16 c.latest ++ u8 (bitAt c.isFresh 0) ++ u16 c.trim ++ u8 (bitAt c.valid 0) ++ u16 (if c.valid then c.mean else 0)

/-- R167: Read Monitor: the report is built, and the fresh flags are then cleared. -/
def readMonitorBlock (s : State) : State :=
  State.accept (s.monitor.channels.toList.flatMap MonitorChannel.report)
    { s with monitor := { s.monitor with
        channels := s.monitor.channels.map fun c => { c with isFresh := false } } }

/-- READ_MONITOR (R167). -/
def execReadMonitor (rt : Byte) (s : State) : Step := carryOut (.readMonitor rt) readMonitorBlock s

/-! ## Monitor clocks -/

/-- R109, R160: a lost clock makes a frame in EXPOSING suspect and halts a frame in PREPARING. -/
def State.meetClockLoss (ch : Channel) (s : State) : State :=
  match s.seq.phase with
  | .exposing => { s with seq := { s.seq with suspect := some (s.seq.suspect.getD ch) } }
  | .preparing => s.halt .monitorLost
  | .between => s

/-- R160: a channel's clock is lost: a reading in progress is abandoned, CLOCK_LOST is set, and the run
meets the loss. -/
def clockLost (ch : Channel) (s : State) : State :=
  let c := s.monitor.channels.get ch
  if c.lost then s
  else
    ((s.setChannel ch { c with lost := true, expecting := false }).setMonitorFlags ch
      { MonitorFlags.clear with clockLost := true }).meetClockLoss ch

/-- MONITOR_CLOCK_LOST (R160). -/
def execMonitorClockLost (channel : Channel) (s : State) : Step := event (clockLost channel) s

/-- R160: a lost clock is present again. A pulse already under way gives no reading. -/
def clockReturn (ch : Channel) (s : State) : State :=
  s.setChannel ch { s.monitor.channels.get ch with lost := false }

/-- MONITOR_CLOCK_RETURN (R160). -/
def execMonitorClockReturn (channel : Channel) (s : State) : Step := event (clockReturn channel) s

/-! ## Readings -/

/-- R159: the samples that the filter of a channel takes: the bitstream at each rising edge of the bit clock after the
facet sync of the line, in order. -/
def samplesOf (edges : List ClockEdge) : List ClockEdge := edges.filter fun e => e.rising && decide (0 < e.time)

/-- R159: the filter of a channel: the count of ones among the first `osr` samples of the line, once the last of them
has been taken; `none` before that, and where one of them does not fall within the reference pulse, which lasts `pulse`
ps from the facet sync (an edge at the active start itself is outside, log 21). -/
def filterCount (osr pulse : Nat) (edges : List ClockEdge) : Option Nat :=
  let taken := (samplesOf edges).take osr
  if taken.length = osr ∧ (taken.all fun e => decide (e.time < pulse)) = true then some (taken.countP ClockEdge.bit)
  else none

/-- R100, R159: the length in ps of the reference pulse of the line under way, from its facet sync to its active start. -/
def State.pulseLength (s : State) : Nat :=
  match s.drive with
  | some l => l.delay * 1000
  | none => 0

/-- R159: the reading of a count of ones. -/
def readingOf (ones osr : Nat) : Nat := ones * 65535 / osr

/-- R159, R163, R164: a reading on one channel, less its flags. -/
def MonitorChannel.take (r : Nat) (t : Target) (c : MonitorChannel) : MonitorChannel :=
  { c with
    latest := r
    isFresh := true
    breaches := if outsideWindow r t.target t.hard then c.breaches + 1 else 0
    sum := c.sum + r
    count := c.count + 1
    expecting := false }

/-- R159: the OSR-th sample of a channel's reading has been taken, with `ones` counted. A channel on which no reading
is under way gives none. -/
def State.takeReading (p : PowerTargets) (ch : Channel) (ones : Option Nat) (s : State) : State :=
  match ones with
  | some n =>
    let c := s.monitor.channels.get ch
    if c.expecting then
      let t := p.channels.get ch
      (s.setChannel ch (c.take (readingOf n p.osr) t)).setMonitorFlags ch (judgeReading (readingOf n p.osr) t)
    else s
  | none => s

/-- R159: the readings completed at one instant, red first (log 21). -/
def State.takeReadings (p : PowerTargets) (ones : Rgb (Option Nat)) (s : State) : State :=
  ((s.takeReading p .red ones.red).takeReading p .green ones.green).takeReading p .blue ones.blue

/-- R163: the channel's breach counter has risen from `before` to the hard count. -/
def reachedHardCount (hardCount : Nat) (before after : MonitorChannel) : Bool :=
  decide (before.breaches < after.breaches ∧ hardCount ≤ after.breaches)

/-- R159, R163: each channel's filter counts its samples, and the readings completed at this instant are taken. The
first channel whose breach counter reaches the hard count spoils the frame. -/
def powerReading (edges : Rgb (List ClockEdge)) (s : State) : State :=
  match s.monitor.targets, s.seq.phase with
  | some p, .exposing =>
    let t := s.takeReadings p (edges.map (filterCount p.osr s.pulseLength))
    match Rgb.first id (Rgb.zip (reachedHardCount p.hardCount) s.monitor.channels t.monitor.channels) with
    | some ch => t.spoil .powerFault t.seq.lineCounter (some ch)
    | none => t
  | some _, .between | some _, .preparing | none, _ => s

/-- POWER_READING (R159), with the edges of the three bit clocks since the facet sync of the line (log 21). -/
def execPowerReading (edges : Rgb (List ClockEdge)) (s : State) : Step := event (powerReading edges) s

end Sys2Proof.Machine
end

