-- ==== Sys2Proof/Machine/Planes.lean ====
section
/-! DEFINITION. The requests of the Plane Tables, and the frame-store accesses that complete (R24 to
R44): Define, Undefine, Rewind and Query Plane, Line Data, LINE_DATA_WRITE_COMPLETE,
PREFETCH_READ_COMPLETE. -/

namespace Sys2Proof.Machine

/-- R25, R24: the selector is checked first, then that a reel is open where it names the reel table. -/
def withPlane (sel : Half) (block : Selector → State → State) (s : State) : State :=
  match Selector.ofWire sel with
  | none => s.answer (.refuse .badValue 1)
  | some x => if x.isReel && s.reel.isNone then s.answer (.refuse .noReel 0) else block x s

/-- R29 check 7: the first defined descriptor, in the order GLOBAL then REEL, that shares a slot with
`base` to `base + limit − 1`. -/
def overlapping (t : Table Plane) (base limit : Nat) : Option Nat :=
  (t.find? fun e => decide (base < e.2.base + e.2.limit ∧ e.2.base < base + limit)).map Prod.fst

/-- R29: the checks of Define Plane from the third on. -/
def definePlaneChecks (x : Selector) (base limit width : Half) (s : State) : List Check :=
  let old := Table.get s.planes x.wire
  let other := overlapping s.planes base.toNat limit.toNat
  [ (old.isSome, .alreadyDefined, (old.map Plane.base).getD 0),
    (decide (limit.toNat < 1 ∨ 4096 < limit.toNat), .badValue, 2),
    (decide (width.toNat < 256 ∨ 4096 < width.toNat ∨ width.toNat % 256 ≠ 0), .badValue, 3),
    (decide (Config.lineSlots < base.toNat + limit.toNat), .bounds,
      base.toNat + limit.toNat - Config.lineSlots),
    (other.isSome, .overlap, other.getD 0) ]

/-- R29, R30: Define Plane. -/
def definePlaneBlock (sel base limit width : Half) (s : State) : State :=
  withPlane sel (fun x s => s.examine (definePlaneChecks x base limit width s) fun s =>
    State.accept []
      { s with planes := Table.put s.planes x.wire ⟨base.toNat, limit.toNat, width.toNat, 0, 0⟩ }) s

/-- DEFINE_PLANE (R29). -/
def execDefinePlane (rt : Byte) (sel base limit width : Half) (s : State) : Step :=
  carryOut (.definePlane rt sel base limit width) (definePlaneBlock sel base limit width) s

/-- R31, R32: the descriptor must be defined and at use count 0. -/
def freePlaneChecks (x : Selector) (s : State) : List Check :=
  let d := Table.get s.planes x.wire
  [ (d.isNone, .notDefined, x.wire),
    (d.any fun p => decide (0 < p.use), .inUse, (d.map Plane.use).getD 0) ]

/-- R31: Undefine Plane. -/
def undefinePlaneBlock (sel : Half) (s : State) : State :=
  withPlane sel (fun x s => s.examine (freePlaneChecks x s) fun s =>
    State.accept [] { s with planes := Table.erase s.planes x.wire }) s

/-- UNDEFINE_PLANE (R31). -/
def execUndefinePlane (rt : Byte) (sel : Half) (s : State) : Step :=
  carryOut (.undefinePlane rt sel) (undefinePlaneBlock sel) s

/-- R32: Rewind Plane: the fill mark becomes 0, and with it the state FILLING. -/
def rewindPlaneBlock (sel : Half) (s : State) : State :=
  withPlane sel (fun x s => s.examine (freePlaneChecks x s) fun s =>
    State.accept [] { s with planes := Table.modify s.planes x.wire fun p => { p with fill := 0 } }) s

/-- REWIND_PLANE (R32). -/
def execRewindPlane (rt : Byte) (sel : Half) (s : State) : Step :=
  carryOut (.rewindPlane rt sel) (rewindPlaneBlock sel) s

/-- R33: a descriptor's state, base slot, limit, width, fill mark and use count; zeros where it is
UNDEFINED. -/
def planeReport (d : Option Plane) : List Byte :=
  u8 (planeStateCode d) ++ u16 ((d.map Plane.base).getD 0) ++ u16 ((d.map Plane.limit).getD 0) ++
    u16 ((d.map Plane.width).getD 0) ++ u16 ((d.map Plane.fill).getD 0) ++ u8 ((d.map Plane.use).getD 0)

/-- R33: Query Plane. -/
def queryPlaneBlock (sel : Half) (s : State) : State :=
  withPlane sel (fun x s => s.accept (planeReport (Table.get s.planes x.wire))) s

/-- QUERY_PLANE (R33). -/
def execQueryPlane (rt : Byte) (sel : Half) (s : State) : Step :=
  carryOut (.queryPlane rt sel) (queryPlaneBlock sel) s

/-! ## Line Data -/

/-- R36: the checks of Line Data from the third on. -/
def lineDataChecks (x : Selector) (line count : Half) (s : State) : List Check :=
  let d := Table.get s.planes x.wire
  let fill := (d.map Plane.fill).getD 0
  let width := (d.map Plane.width).getD 0
  [ (d.isNone, .notDefined, x.wire),
    (d.any fun p => decide (p.fill = p.limit), .busy, fill),
    (decide (line.toNat ≠ fill), .outOfOrder, fill),
    (decide (count.toNat ≠ width), .badLength, width) ]

/-- R37: one write is put to the Frame Store Arbiter, and the reply waits for it. -/
def State.claimWrite (x : Selector) (line : Nat) (words : List Half) (s : State) : State :=
  let slot := ((Table.get s.planes x.wire).map Plane.base).getD 0 + line
  State.serve { s.await with arbiter := { s.arbiter with writeWaiting := some ⟨x, slot, words⟩ } }

/-- R36, R37: Line Data. -/
def lineDataBlock (sel line count : Half) (words : List Half) (s : State) : State :=
  withPlane sel (fun x s => s.examine (lineDataChecks x line count s) (State.claimWrite x line.toNat words)) s

/-- LINE_DATA (R36). -/
def execLineData (rt : Byte) (sel line count : Half) (words : List Half) (s : State) : Step :=
  carryOut (.lineData rt sel line count words) (lineDataBlock sel line count words) s

/-! ## Accesses that complete -/

/-- R38, R39: the fill mark rises and the reply is pending; or the descriptor was undefined meanwhile,
and the request is refused. -/
def State.noteWritten (x : Selector) (s : State) : State :=
  match Table.get s.planes x.wire with
  | some p =>
    let p' := { p with fill := p.fill + 1 }
    State.accept (u16 p'.fill ++ u8 (planeStateCode (some p')))
      { s with planes := Table.put s.planes x.wire p' }
  | none => s.answer (.refuse .notDefined x.wire)

/-- R38, R39, R41: the write in progress completes: its words are stored, the fill mark rises, the
prefetcher's conditions are examined, and the arbiter chooses. -/
def writeComplete (s : State) : State :=
  match s.arbiter.access with
  | some (.write c) =>
    let s1 := { s with
      arbiter := { s.arbiter with access := none, lastServed := .planeWriter }
      store := Memory.writeLine s.store c.slot c.words }
    (s1.noteWritten c.sel).prefetch
  | some (.read _ _) | none => s

/-- LINE_DATA_WRITE_COMPLETE (R38). -/
def execLineDataWriteComplete (s : State) : Step := event writeComplete s

/-- R88, R93: a row joins the set in assembly. With planes left the next read is claimed; with none
left the set joins the tail of the queue and the prefetch cursor rises. -/
def State.addRow (words : List Half) (s : State) : State :=
  match s.seq.assembly with
  | none => s
  | some a =>
    match a.rest with
    | [] => s
    | sel :: rest =>
      let rows := a.rows ++ [⟨sel, words⟩]
      match rest with
      | [] =>
        { s with seq := { s.seq with
            assembly := none
            queue := s.seq.queue ++ [⟨a.line, rows⟩]
            cursor := a.line + 1 } }
      | next :: _ =>
        { s with
          seq := { s.seq with assembly := some ⟨a.line, rows, rest⟩ }
          arbiter := { s.arbiter with readWaiting := some (readClaim s.planes s.rasterWidth a.line next) } }

/-- R41, R43, R88: the read in progress completes. Its words join the set in assembly, unless they are
discarded; the prefetcher's conditions are examined, and the arbiter chooses. -/
def readComplete (s : State) : State :=
  match s.arbiter.access with
  | some (.read c discard) =>
    let s1 := { s with arbiter := { s.arbiter with access := none, lastServed := .prefetcher } }
    let s2 := if discard then s1 else s1.addRow (Memory.readLine s.store s.freeEpoch c.slot c.width)
    s2.prefetch
  | some (.write _) | none => s

/-- PREFETCH_READ_COMPLETE (R41). -/
def execPrefetchReadComplete (s : State) : Step := event readComplete s

end Sys2Proof.Machine
end

