-- ==== Sys2Proof/Machine/Runs.lean ====
section
/-! DEFINITION. Start Run, Stop Run, Pause Run and Resume Run (R67 to R84), and the events of the frame
cycle that no pulse brings: LEAD_IN_TIMER_EXPIRY (R95) and FRAME_CLEAN_END (R104). -/

namespace Sys2Proof.Machine

/-! ## Start Run -/

/-- R67, R68: the checks of Start Run, in order. -/
def startRunChecks (mode : Byte) (leadIn : Half) (s : State) : List Check :=
  (decide (s.run.state ≠ .stopped), .busy, 0) ::
  ((runModeOf mode).isNone, .badValue, 1) ::
  ((leadInOf leadIn).isNone, .badValue, 2) ::
  s.startChecks ((runModeOf mode).getD .endOnEmpty)

/-- R70: the run is accepted, and the sequencer acts in BETWEEN. The halt record is left. -/
def State.beginRun (mode : RunMode) (leadIn : Nat) (s : State) : State :=
  State.between <| State.accept []
    { s with run := { s.run with state := .running, mode := mode, leadIn := leadIn, pendingStop := .none } }

/-- R67, R70: Start Run. -/
def startRunBlock (mode : Byte) (leadIn : Half) (s : State) : State :=
  s.examine (startRunChecks mode leadIn s)
    (State.beginRun ((runModeOf mode).getD .endOnEmpty) ((leadInOf leadIn).getD 0))

/-- START_RUN (R70). -/
def execStartRun (rt mode : Byte) (leadIn : Half) (s : State) : Step :=
  carryOut (.startRun rt mode leadIn) (startRunBlock mode leadIn) s

/-! ## Stop Run -/

/-- R75: the stronger of two stops. -/
def StopMode.stronger (a b : StopMode) : StopMode := if a.code < b.code then b else a

/-- R75 to R78: the pending stop is acted on against the present run state and phase. -/
def State.actOnStop (s : State) : State :=
  if s.run.state = .paused then s.halt .stopRequest
  else match s.run.pendingStop with
    | .none => s
    | .atJob => if s.seq.phase = .between ∧ s.jobs.live = [] then s.halt .stopRequest else s
    | .atFrame => if s.seq.phase = .exposing then s else s.halt .stopRequest
    | .now =>
      if s.seq.phase = .exposing then s.spoil .stopNow s.seq.lineCounter none else s.halt .stopRequest

/-- R75: an accepted Stop Run; the reply carries run state and pending stop as they stand after it. -/
def State.stopRun (m : StopMode) (s : State) : State :=
  let t := State.actOnStop { s with run := { s.run with pendingStop := s.run.pendingStop.stronger m } }
  t.accept (u8 t.run.state.code ++ u8 t.run.pendingStop.code)

/-- R75: Stop Run. -/
def stopRunBlock (mode : Byte) (s : State) : State :=
  s.examine
    [ (decide (s.run.state = .stopped), .busy, 0),
      ((stopModeOf mode).isNone, .badValue, 1) ]
    (State.stopRun ((stopModeOf mode).getD .none))

/-- STOP_RUN (R75). -/
def execStopRun (rt mode : Byte) (s : State) : Step := carryOut (.stopRun rt mode) (stopRunBlock mode) s

/-! ## Pause Run and Resume Run -/

/-- R80: an accepted Pause Run acts against the present phase. -/
def State.pauseRun (s : State) : State :=
  let s1 := { s with run := { s.run with state := .pausing } }
  let t := if s.seq.phase = .exposing then s1 else s1.rest
  t.accept (u8 t.run.state.code)

/-- R80: Pause Run. -/
def pauseRunBlock (s : State) : State :=
  s.examine [(decide (s.run.state ≠ .running), .busy, 0)] State.pauseRun

/-- PAUSE_RUN (R80). -/
def execPauseRun (rt : Byte) (s : State) : Step := carryOut (.pauseRun rt) pauseRunBlock s

/-- R83: the run is RUNNING again with a new lead-in time. -/
def State.resume (leadIn : Nat) (s : State) : State :=
  State.accept [] { s with run := { s.run with state := .running, leadIn := leadIn } }

/-- R83: Resume Run, examined against the run state. -/
def resumeRunBlock (leadIn : Half) (s : State) : State :=
  let lead : Check := ((leadInOf leadIn).isNone, .badValue, 2)
  match s.run.state with
  | .stopped | .running => s.answer (.refuse .busy 0)
  | .pausing => s.examine [lead] (State.resume ((leadInOf leadIn).getD 0))
  | .paused =>
    s.examine (lead :: s.startChecks s.run.mode) fun s => (s.resume ((leadInOf leadIn).getD 0)).between

/-- RESUME_RUN (R83). -/
def execResumeRun (rt : Byte) (leadIn : Half) (s : State) : Step :=
  carryOut (.resumeRun rt leadIn) (resumeRunBlock leadIn) s

/-! ## Events of the frame cycle -/

/-- R94, R95: the lines condition of the head job's frame. -/
def State.linesReady (s : State) : Bool :=
  match s.head.map Job.work with
  | some (.expose ..) => decide (min 8 s.rasterLines ≤ s.seq.queue.length)
  | some (.flash ..) | some .blank | none => true

/-- R95: the lead-in timer expires while the frame is in PREPARING. -/
def leadInExpiry (s : State) : State :=
  if s.seq.phase = .preparing ∧ s.seq.leadTimer.isSome then
    if !s.transport.isReady then s.halt .transportFault
    else if !s.linesReady then s.halt .dataLate
    else { s with seq := { s.seq with leadTimer := none } }
  else s

/-- LEAD_IN_TIMER_EXPIRY (R95). -/
def execLeadInTimerExpiry (s : State) : Step := event leadInExpiry s

/-- R104: the last pixel of the last line has been driven. -/
def frameCleanEnd (s : State) : State :=
  if s.seq.phase = .exposing ∧ s.seq.lineCounter + 1 = s.rasterLines then s.cleanEnd else s

/-- FRAME_CLEAN_END (R104). -/
def execFrameCleanEnd (s : State) : Step := event frameCleanEnd s

end Sys2Proof.Machine
end

