-- ==== Sys2Proof/Machine/ScanTiming.lean ====
section
/-! DEFINITION. The Scan Timing Unit: Set Scan Geometry, Load Facet Corrections, Calibrate Scan, the SOS
and INDEX pulses in calibration and in lock supervision, and the deadlines (R136 to R151). -/

namespace Sys2Proof.Machine

/-! ## Requests -/

/-- R138: the checks of Set Scan Geometry, in order. -/
def setScanGeometryChecks (p : GeometryItems) (s : State) : List Check :=
  [ (decide (s.run.state ≠ .stopped), .busy, 0),
    (decide (s.scan.state = .calibrating), .busy, 1),
    (decide (p.facets.toNat < 4 ∨ 16 < p.facets.toNat), .badValue, 1),
    (decide (p.period.toNat < 10000 ∨ 200000 < p.period.toNat), .badValue, 2),
    (decide (p.pixelPeriod.toNat < 2000 ∨ 40000 < p.pixelPeriod.toNat), .badValue, 3),
    (decide (p.tolerance.toNat < 50 ∨ 5000 < p.tolerance.toNat), .badValue, 4),
    (decide (p.missLimit.toNat < 1 ∨ 8 < p.missLimit.toNat), .badValue, 5),
    (decide (p.revolutions.toNat < 1 ∨ 64 < p.revolutions.toNat), .badValue, 6) ]

/-- R137: the six values of a request. -/
def geometryOf (p : GeometryItems) : Geometry :=
  ⟨p.facets.toNat, p.period.toNat, p.pixelPeriod.toNat, p.tolerance.toNat, p.missLimit.toNat,
    p.revolutions.toNat⟩

/-- R138: the geometry is set, and the scan becomes UNLOCKED. -/
def State.setGeometry (g : Geometry) (s : State) : State :=
  let c := { s.scan with
    geometry := g
    captured := none
    corrections := if g.facets = s.scan.geometry.facets then s.scan.corrections else List.replicate g.facets 0
    state := .unlocked
    misses := 0
    noSignal := none }
  State.accept [] (State.raise .scan { s with scan := c })

/-- R138: Set Scan Geometry. -/
def setScanGeometryBlock (p : GeometryItems) (s : State) : State :=
  s.examine (setScanGeometryChecks p s) (State.setGeometry (geometryOf p))

/-- SET_SCAN_GEOMETRY (R138). -/
def execSetScanGeometry (rt : Byte) (p : GeometryItems) (s : State) : Step :=
  carryOut (.setScanGeometry rt p) (setScanGeometryBlock p) s

/-- R140 check 3: the first facet whose value lies outside −2,000..+2,000. -/
def firstBadCorrection (values : List Half) : Option Nat :=
  values.findIdx? fun v => decide (correctionOf v < -2000 ∨ 2000 < correctionOf v)

/-- R140: Load Facet Corrections. -/
def loadFacetCorrectionsBlock (count : Byte) (values : List Half) (s : State) : State :=
  s.examine
    [ (decide (s.run.state ≠ .stopped), .busy, 0),
      (decide (count.toNat ≠ s.scan.geometry.facets), .badValue, s.scan.geometry.facets),
      ((firstBadCorrection values).isSome, .badValue, 0x8000 + (firstBadCorrection values).getD 0) ]
    fun s => State.accept [] { s with scan := { s.scan with corrections := values.map correctionOf } }

/-- LOAD_FACET_CORRECTIONS (R140). -/
def execLoadFacetCorrections (rt count : Byte) (values : List Half) (s : State) : Step :=
  carryOut (.loadFacetCorrections rt count values) (loadFacetCorrectionsBlock count values) s

/-- R145: the length of the INDEX deadline, in ns. -/
def Geometry.indexDeadline (g : Geometry) : Nat := 4 * g.facets * g.period

/-- R145, R147: the length of the SOS gap watchdog and of the no-signal watchdog, in ns. -/
def Geometry.sosGap (g : Geometry) : Nat := 2 * g.period

/-- R142: a calibration that awaits its opening INDEX. -/
def Calibration.start (g : Geometry) : Calibration where
  revolution := 0
  sosSeen := false
  sums := List.replicate g.facets 0
  countFault := none
  rangeFault := none
  completed := 0
  indexDeadline := g.indexDeadline
  sosGap := g.sosGap

/-- R142: the acceptance of Calibrate Scan. -/
def State.startCalibration (s : State) : State :=
  let c := { s.scan with
    state := .calibrating
    captured := none
    misses := 0
    noSignal := none
    calibration := some (Calibration.start s.scan.geometry) }
  State.accept [] (State.raise .scan { s with scan := c })

/-- R142: Calibrate Scan. -/
def calibrateScanBlock (s : State) : State :=
  s.examine
    [ (decide (s.run.state ≠ .stopped), .busy, 0),
      (decide (s.scan.state = .calibrating), .busy, 1) ]
    State.startCalibration

/-- CALIBRATE_SCAN (R142). -/
def execCalibrateScan (rt : Byte) (s : State) : Step := carryOut (.calibrateScan rt) calibrateScanBlock s

/-! ## Calibration -/

/-- R143: the measured period lies outside 95%..105% of the nominal facet period. -/
def outsideRange (nominal m : Nat) : Bool := decide (m * 100 < nominal * 95 ∨ nominal * 105 < m * 100)

/-- R143: one SOS of the capture whose facet count is `k + 1 ≤ F`: the period of facet `k`. -/
def Calibration.capture (g : Geometry) (k m : Nat) (c : Calibration) : Calibration :=
  { c with
    sums := c.sums.modify k (· + m)
    rangeFault :=
      if c.rangeFault.isNone && outsideRange g.period m then some ⟨c.revolution, k, m⟩ else c.rangeFault }

/-- R143: an SOS in CALIBRATING. Each restarts the SOS gap watchdog. -/
def Scan.calibrationSos (m : Nat) (c : Calibration) (x : Scan) : Scan :=
  let c1 := { c with sosSeen := true, sosGap := x.geometry.sosGap }
  if c.revolution = 0 then { x with calibration := some c1 }
  else
    { x with
      facetCount := min (x.facetCount + 1) 255
      calibration := some (if x.facetCount < x.geometry.facets then c1.capture x.geometry x.facetCount m else c1) }

/-- R144, R145: a calibration that ends without a lock: UNLOCKED, captured periods empty. -/
def State.failCalibration (o : CalOutcome) (s : State) : State :=
  State.raise .scan
    { s with scan := { s.scan with
        state := .unlocked
        captured := none
        outcome := o
        calibration := none } }

/-- R144: each facet's captured period: the mean of its periods, rounded down to a multiple of 10 ns. -/
def capturedPeriods (revolutions : Nat) (sums : List Nat) : List Nat :=
  sums.map fun sum => sum / revolutions / 10 * 10

/-- R144: the calibration is judged at its closing INDEX. -/
def State.judgeCalibration (c : Calibration) (s : State) : State :=
  match c.countFault with
  | some f => s.failCalibration (.facetCount c.completed f.revolution f.pulses)
  | none =>
    match c.rangeFault with
    | some f => s.failCalibration (.outOfRange c.completed f.facet f.period)
    | none =>
      State.raise .scan
        { s with scan := { s.scan with
            state := .locked
            captured := some (capturedPeriods s.scan.geometry.revolutions c.sums)
            misses := 0
            facetCount := 0
            outcome := .locked c.completed
            calibration := none
            noSignal := some s.scan.geometry.sosGap } }

/-- R143: an INDEX in CALIBRATING: before any SOS it restarts the deadline only; then it opens the
capture; then each ends a revolution, and that of revolution R is the closing INDEX. -/
def State.calibrationIndex (c : Calibration) (s : State) : State :=
  let g := s.scan.geometry
  let c1 := { c with indexDeadline := g.indexDeadline }
  if c.revolution = 0 then
    if c.sosSeen then
      { s with scan := { s.scan with facetCount := 0, calibration := some { c1 with revolution := 1 } } }
    else { s with scan := { s.scan with calibration := some c1 } }
  else
    let c2 := { c1 with
      completed := c.completed + 1
      countFault :=
        if c.countFault.isNone && decide (s.scan.facetCount ≠ g.facets) then
          some ⟨c.revolution, s.scan.facetCount⟩
        else c.countFault }
    if c.revolution = g.revolutions then s.judgeCalibration c2
    else
      { s with scan := { s.scan with
          facetCount := 0
          calibration := some { c2 with revolution := c.revolution + 1 } } }

/-! ## Lock supervision -/

/-- R146: the measured period is good for a captured period. -/
def goodPeriod (tolerance m p : Nat) : Bool := decide ((max m p - min m p) * 1000000 ≤ p * tolerance)

/-- R146: an SOS in LOCKED. -/
def State.supervise (elapsed m : Nat) (s : State) : State :=
  let k := s.scan.facetCount
  let g := s.scan.geometry
  let s1 := { s with scan := { s.scan with facetCount := k + 1 } }
  if g.facets < k + 1 then s1.loseLock .facetCount
  else
    let good := goodPeriod g.tolerance m ((s.scan.captured.getD []).getD k 0)
    let misses := if good then 0 else s.scan.misses + 1
    let s2 := { s1 with scan := { s1.scan with misses := misses } }
    if !good && decide (misses = g.missLimit) then s2.loseLock .period
    else State.facetSync k elapsed { s2 with scan := { s2.scan with noSignal := some g.sosGap } }

/-! ## Pulses -/

/-- R136: an SOS `elapsed` ns after the previous one is measured, to 10 ns, unless it is the first. -/
def Scan.measure (elapsed : Nat) (x : Scan) : Scan :=
  { x with sosSeen := true, period := if x.sosSeen then some (elapsed / 10 * 10) else none }

/-- R136, R143, R146: an SOS pulse. In UNLOCKED and LOST it is only measured. -/
def sosPulse (elapsed : Nat) (s : State) : State :=
  let s1 := { s with scan := s.scan.measure elapsed }
  let m := s1.scan.period.getD 0
  match s.scan.state with
  | .unlocked | .lost _ => s1
  | .calibrating =>
    match s.scan.calibration with
    | some c => { s1 with scan := s1.scan.calibrationSos m c }
    | none => s1
  | .locked => s1.supervise elapsed m

/-- SOS_PULSE (R146). -/
def execSosPulse (elapsed : Nat) (s : State) : Step := event (sosPulse elapsed) s

/-- R143, R147: an INDEX pulse. -/
def indexPulse (s : State) : State :=
  match s.scan.state with
  | .unlocked | .lost _ => s
  | .calibrating =>
    match s.scan.calibration with
    | some c => s.calibrationIndex c
    | none => s
  | .locked =>
    if s.scan.facetCount = s.scan.geometry.facets then { s with scan := { s.scan with facetCount := 0 } }
    else s.loseLock .facetCount

/-- INDEX_PULSE (R147). -/
def execIndexPulse (s : State) : Step := event indexPulse s

/-! ## Deadlines -/

/-- R145: a deadline of a calibration expires. -/
def calibrationDeadline (d : Deadline) (s : State) : State :=
  match s.scan.state, s.scan.calibration with
  | .calibrating, some c => s.failCalibration (.noSignal c.completed d)
  | .calibrating, none | .unlocked, _ | .locked, _ | .lost _, _ => s

/-- CALIBRATION_INDEX_DEADLINE (R145). -/
def execCalibrationIndexDeadline (s : State) : Step := event (calibrationDeadline .index) s

/-- SOS_GAP_WATCHDOG_EXPIRY (R145). -/
def execSosGapWatchdogExpiry (s : State) : Step := event (calibrationDeadline .sos) s

/-- R147: no SOS within twice the nominal facet period in LOCKED. -/
def noSignalExpiry (s : State) : State :=
  match s.scan.state with
  | .locked => s.loseLock .noSignal
  | .unlocked | .calibrating | .lost _ => s

/-- NO_SIGNAL_WATCHDOG_EXPIRY (R147). -/
def execNoSignalWatchdogExpiry (s : State) : Step := event noSignalExpiry s

end Sys2Proof.Machine
end

