-- ==== Sys2Proof/Machine/Dispatch.lean ====
section
/-! DEFINITION. The meaning of every command: one arm for each constructor of `Instr`. -/

namespace Sys2Proof.Machine

/-- The effect of one command on everything but the queue. -/
def exec (i : Instr) (s : State) : Host.Outcome State Fault Refusal :=
  match i with
  | .queueJob rt p => Sys2Proof.Machine.execQueueJob rt p s
  | .cancelJob rt tag => Sys2Proof.Machine.execCancelJob rt tag s
  | .queryJob rt tag => Sys2Proof.Machine.execQueryJob rt tag s
  | .definePlane rt sel base limit width => Sys2Proof.Machine.execDefinePlane rt sel base limit width s
  | .undefinePlane rt sel => Sys2Proof.Machine.execUndefinePlane rt sel s
  | .rewindPlane rt sel => Sys2Proof.Machine.execRewindPlane rt sel s
  | .lineData rt sel line count words => Sys2Proof.Machine.execLineData rt sel line count words s
  | .queryPlane rt sel => Sys2Proof.Machine.execQueryPlane rt sel s
  | .beginCurve rt set => Sys2Proof.Machine.execBeginCurve rt set s
  | .curveData rt set channel first count entries => Sys2Proof.Machine.execCurveData rt set channel first count entries s
  | .commitCurve rt set => Sys2Proof.Machine.execCommitCurve rt set s
  | .discardCurve rt set => Sys2Proof.Machine.execDiscardCurve rt set s
  | .queryCurve rt set => Sys2Proof.Machine.execQueryCurve rt set s
  | .setDriveOptions rt placement => Sys2Proof.Machine.execSetDriveOptions rt placement s
  | .startRun rt mode leadIn => Sys2Proof.Machine.execStartRun rt mode leadIn s
  | .stopRun rt mode => Sys2Proof.Machine.execStopRun rt mode s
  | .pauseRun rt => Sys2Proof.Machine.execPauseRun rt s
  | .resumeRun rt leadIn => Sys2Proof.Machine.execResumeRun rt leadIn s
  | .openReel rt p => Sys2Proof.Machine.execOpenReel rt p s
  | .closeReel rt => Sys2Proof.Machine.execCloseReel rt s
  | .registerGate rt gate => Sys2Proof.Machine.execRegisterGate rt gate s
  | .advanceFrames rt count => Sys2Proof.Machine.execAdvanceFrames rt count s
  | .clearTransport rt => Sys2Proof.Machine.execClearTransport rt s
  | .setTransportTiming rt timeout settle => Sys2Proof.Machine.execSetTransportTiming rt timeout settle s
  | .setScanGeometry rt p => Sys2Proof.Machine.execSetScanGeometry rt p s
  | .loadFacetCorrections rt count values => Sys2Proof.Machine.execLoadFacetCorrections rt count values s
  | .calibrateScan rt => Sys2Proof.Machine.execCalibrateScan rt s
  | .enableLasers rt mask => Sys2Proof.Machine.execEnableLasers rt mask s
  | .disableLasers rt mask => Sys2Proof.Machine.execDisableLasers rt mask s
  | .setPowerTargets rt p => Sys2Proof.Machine.execSetPowerTargets rt p s
  | .readMonitor rt => Sys2Proof.Machine.execReadMonitor rt s
  | .takeSpoilEntries rt count => Sys2Proof.Machine.execTakeSpoilEntries rt count s
  | .getStatus rt => Sys2Proof.Machine.execGetStatus rt s
  | .setNotices rt mask => Sys2Proof.Machine.execSetNotices rt mask s
  | .softReset rt => Sys2Proof.Machine.execSoftReset rt s
  | .messageReceived bytes => Sys2Proof.Machine.execMessageReceived bytes s
  | .interByteGapTimeout => Sys2Proof.Machine.execInterByteGapTimeout s
  | .transmitStart hrdy => Sys2Proof.Machine.execTransmitStart hrdy s
  | .messageTransmitted => Sys2Proof.Machine.execMessageTransmitted s
  | .hardwareReset => Sys2Proof.Machine.execHardwareReset s
  | .resetRelease rate1 rate0 => Sys2Proof.Machine.execResetRelease rate1 rate0 s
  | .sosPulse elapsed => Sys2Proof.Machine.execSosPulse elapsed s
  | .indexPulse => Sys2Proof.Machine.execIndexPulse s
  | .calibrationIndexDeadline => Sys2Proof.Machine.execCalibrationIndexDeadline s
  | .sosGapWatchdogExpiry => Sys2Proof.Machine.execSosGapWatchdogExpiry s
  | .noSignalWatchdogExpiry => Sys2Proof.Machine.execNoSignalWatchdogExpiry s
  | .perfPulse => Sys2Proof.Machine.execPerfPulse s
  | .pullDownTimerExpiry => Sys2Proof.Machine.execPullDownTimerExpiry s
  | .settleTimerExpiry => Sys2Proof.Machine.execSettleTimerExpiry s
  | .filmPresentChange level => Sys2Proof.Machine.execFilmPresentChange level s
  | .tensionOkChange level => Sys2Proof.Machine.execTensionOkChange level s
  | .gateClosedChange level => Sys2Proof.Machine.execGateClosedChange level s
  | .endSensorChange level => Sys2Proof.Machine.execEndSensorChange level s
  | .interlockChange level => Sys2Proof.Machine.execInterlockChange level s
  | .laserReadyChange levels => Sys2Proof.Machine.execLaserReadyChange levels s
  | .monitorClockLost channel => Sys2Proof.Machine.execMonitorClockLost channel s
  | .powerReading edges => Sys2Proof.Machine.execPowerReading edges s
  | .leadInTimerExpiry => Sys2Proof.Machine.execLeadInTimerExpiry s
  | .prefetchReadComplete => Sys2Proof.Machine.execPrefetchReadComplete s
  | .lineDataWriteComplete => Sys2Proof.Machine.execLineDataWriteComplete s
  | .frameCleanEnd => Sys2Proof.Machine.execFrameCleanEnd s
  | .monitorClockReturn channel => Sys2Proof.Machine.execMonitorClockReturn channel s

end Sys2Proof.Machine
end

