-- ==== Sys2Proof/Safety.lean ====
section
/-! DEFINITION. What claims about the PX-340 are stated with: when a request is with its block, and the
invariants that every step keeps. -/

namespace Sys2Proof.Machine

/-! ## When a request is with its block -/

/-- R180: the RESET pin is released, and the current request is `i`, with the block that owns it, as the
message `m` that brought it. -/
def State.Handed (i : Instr) (m : Message) (s : State) : Prop :=
  s.resetPin = false ∧ s.link.current = some ⟨m, .handed⟩ ∧ m.decode = some i

/-- The current request `m` has been answered with `r`, and nothing else of the state has changed. -/
def State.answered (m : Message) (r : Reply) (s : State) : State :=
  { s with link := { s.link with current := some ⟨m, .replyPending r⟩ } }

/-- The request is refused with a code and a detail, and changes nothing else (R182). -/
def Refused (i : Instr) (m : Message) (s : State) (code : RefusalCode) (detail : Nat) : Prop :=
  exec i s = .next (s.answered m (.refuse code detail))

/-- The request is accepted: `t` is the state its effects leave, and the reply carries `items` (R182). -/
def Accepted (i : Instr) (m : Message) (s t : State) (items : List Byte) : Prop :=
  exec i s = .next (t.answered m (.accept items))

/-- Every check of a table passes. -/
def passes (checks : List Check) : Prop := ∀ c ∈ checks, c.1 = false

/-- The first check of a table that fails is the refusal, and the request then changes nothing. -/
def FirstRefusal (i : Instr) (m : Message) (s : State) (checks : List Check) : Prop :=
  ∀ before code detail after, checks = before ++ (true, code, detail) :: after → passes before →
    Refused i m s code detail

/-- A selector is well formed: index 0..63 of the global table or 0..191 of the reel table, the other seven
bits of the second byte 0 (R25). -/
def selectorOk (w : Half) : Bool :=
  decide ((w.toNat / 256 = 0 ∧ w.toNat % 256 < 64) ∨ (w.toNat / 256 = 128 ∧ w.toNat % 256 < 192))

/-- R25, R24: the two checks every request of the Plane Tables begins with. -/
def selectorChecks (w : Half) (s : State) : List Check :=
  [(!selectorOk w, .badValue, 1), (decide (w.toNat / 256 = 128) && s.reel.isNone, .noReel, 0)]

/-- R31, R32: the checks that Undefine Plane and Rewind Plane share: a defined descriptor that no job
names. -/
def unusedPlaneChecks (sel : Half) (s : State) : List Check :=
  selectorChecks sel s ++
    [ ((Table.get s.planes sel.toNat).isNone, .notDefined, sel.toNat),
      ((Table.get s.planes sel.toNat).any fun p => decide (0 < p.use), .inUse,
        ((Table.get s.planes sel.toNat).map Plane.use).getD 0) ]

/-- R53: the exposure product of entry `v` of a curve is less than that of the entry before it. -/
def fallsAt (curve : List DriveEntry) (v : Nat) : Prop :=
  ∃ a b, 1 ≤ v ∧ curve[v - 1]? = some a ∧ curve[v]? = some b ∧ b.level * b.duty < a.level * a.duty

/-- R7, R8: the checks of Queue Job in order; the items of the payload, and planes and curve set channel by
channel. -/
def queueRows (p : QueueJobItems) (s : State) : List Check :=
  let kind := p.kind.toNat
  let marked (n : Nat) : Bool := p.presence.getLsbD n
  let plane (sel : Half) : Option Plane := Table.get s.planes sel.toNat
  let unfit (sel : Half) : Bool := (plane sel).any fun d =>
    decide (d.width ≠ (s.reel.map Reel.width).getD 0 ∨ d.limit < (s.reel.map Reel.lines).getD 0)
  [ (decide (32 ≤ s.jobs.live.length + s.jobs.results.length), .full, s.jobs.results.length),
    (s.reel.isNone, .noReel, 0),
    (decide (p.tag.toNat = 0), .badValue, 1),
    (decide (2 < kind), .badValue, 2),
    (decide (p.presence.toNat % 8 ≠ (if kind = 0 then 3 else if kind = 1 then 6 else 0)), .badValue, 3),
    (marked 0 && !selectorOk p.selectors.red, .badValue, 4),
    (marked 0 && !selectorOk p.selectors.green, .badValue, 5),
    (marked 0 && !selectorOk p.selectors.blue, .badValue, 6),
    (marked 1 && decide (15 < p.curveSet.toNat), .badValue, 7),
    (marked 2 && decide (4095 < p.flash.red.toNat), .badValue, 8),
    (marked 2 && decide (4095 < p.flash.green.toNat), .badValue, 9),
    (marked 2 && decide (4095 < p.flash.blue.toNat), .badValue, 10),
    (decide (p.release.toNat ≠ 0 ∧ kind ≠ 0), .badValue, 11),
    (((s.jobs.live ++ s.jobs.results).map Job.tag).contains p.tag.toNat, .duplicateTag, p.tag.toNat),
    (decide (kind ≤ 1) && !((Table.get s.curves p.curveSet.toNat).any CurveSet.ready), .notReady,
      p.curveSet.toNat),
    (decide (kind = 0) && (plane p.selectors.red).isNone, .notDefined, p.selectors.red.toNat),
    (decide (kind = 0) && (plane p.selectors.green).isNone, .notDefined, p.selectors.green.toNat),
    (decide (kind = 0) && (plane p.selectors.blue).isNone, .notDefined, p.selectors.blue.toNat),
    (decide (kind = 0) && unfit p.selectors.red, .bounds, p.selectors.red.toNat),
    (decide (kind = 0) && unfit p.selectors.green, .bounds, p.selectors.green.toNat),
    (decide (kind = 0) && unfit p.selectors.blue, .bounds, p.selectors.blue.toNat) ]

/-! ## Frame store: the arbiter's choice, the prefetcher, a withdrawn claim -/

/-- R41, R42: the arbiter `b` is `a` after it has chosen with `sets` line sets in the Line Prefetch Queue: an access
in progress goes on; a claim that waits alone is served; with both waiting, the prefetcher is served while fewer
than 4 sets are complete, and else the claimant not served last. -/
structure Chosen (sets : Nat) (a b : Arbiter) : Prop where
  busy : a.access.isSome → b = a
  idle : a.access = none → a.readWaiting = none → a.writeWaiting = none → b = a
  read : ∀ r, a.access = none → a.readWaiting = some r →
    a.writeWaiting = none ∨ sets < 4 ∨ a.lastServed = .planeWriter →
    b = { a with access := some (.read r false), readWaiting := none }
  write : ∀ w, a.access = none → a.writeWaiting = some w →
    a.readWaiting = none ∨ (4 ≤ sets ∧ a.lastServed = .prefetcher) →
    b = { a with access := some (.write w), writeWaiting := none }

/-- R93, R41: the prefetcher begins the line set of its cursor on an EXPOSE frame whose distinct planes are
`sel :: sels`: the four conditions of R93, in PREPARING or EXPOSING, with no claim of the prefetcher waiting or in
progress (that a discarded read in progress counts is log 15). -/
structure BeginsSet (s : State) (reel : Reel) (sel : Selector) (sels : List Selector) : Prop where
  planes : (s.jobs.live.head?.map fun j => j.work.planes) = some (sel :: sels)
  opened : s.reel = some reel
  phase : s.seq.phase ≠ .between
  noSet : s.seq.assembly = none
  line : s.seq.cursor < reel.lines
  filled : ∀ x ∈ sel :: sels, ∃ p, Table.get s.planes x.wire = some p ∧ s.seq.cursor < p.fill
  room : s.seq.queue.length < 8
  noRead : s.arbiter.readWaiting = none ∧ ∀ c d, s.arbiter.access ≠ some (.read c d)

/-- R41, R93: the prefetcher's conditions have been examined on the state `u`, and the arbiter has chosen. A set begun
is in assembly, and the read of its line of its first plane has been put to the arbiter. -/
structure Prefetched (u t : State) : Prop where
  begins : ∀ reel sel sels p, BeginsSet u reel sel sels → Table.get u.planes sel.wire = some p →
    t.seq.assembly = some ⟨u.seq.cursor, [], sel :: sels⟩ ∧
    Chosen u.seq.queue.length
      { u.arbiter with readWaiting := some ⟨sel, p.base + u.seq.cursor, reel.width⟩ } t.arbiter
  waits : (∀ reel sel sels, ¬ BeginsSet u reel sel sels) →
    t.seq.assembly = u.seq.assembly ∧ Chosen u.seq.queue.length u.arbiter t.arbiter

/-- R43, R112: the prefetcher's claim is given up: a waiting read claim is withdrawn, a read in progress goes on and
its words will be discarded, and a write, waiting or in progress, is unaffected. -/
structure ClaimWithdrawn (a b : Arbiter) : Prop where
  waiting : b.readWaiting = none
  reading : ∀ c d, a.access = some (.read c d) → b.access = some (.read c true)
  other : (∀ c d, a.access ≠ some (.read c d)) → b.access = a.access
  write : b.writeWaiting = a.writeWaiting
  last : b.lastServed = a.lastServed

/-! ## What a halt, a spoil and a fault do -/

/-- R72, R112: the run has ended with a reason: the halt record, the run state, the pending stop, the phase
and what the sequencer lays down, the blanked drive, and the HALT class pending; a HALT notice that is being sent is
marked, so that its end leaves the class pending (R73, R185). -/
structure Halted (reason : HaltReason) (s t : State) : Prop where
  record : t.run.halt = some ⟨reason, s.transport.position, s.jobs.live.head?.map Job.tag⟩
  run : t.run.state = .stopped ∧ t.run.pendingStop = .none ∧ t.run.mode = s.run.mode ∧ t.run.leadIn = s.run.leadIn
  sequencer : t.seq = ⟨.between, 0, none, [], 0, false, none, none⟩
  blanked : t.drive = none
  notice : t.link.notices.halt = true
  raisedAgain : ∀ again msg, s.link.transmitter = some ⟨.flag .halt again, msg⟩ →
    t.link.transmitter = some ⟨.flag .halt true, msg⟩

/-- R107: a frame in EXPOSING has been spoiled: the halt, the head job's spoiled count, and the log entry. -/
structure Spoiled (cause : SpoilCause) (reason : HaltReason) (line : Nat) (ch : Option Channel) (s t : State) :
    Prop extends Halted reason s t where
  results : t.jobs.results = s.jobs.results
  counted : ∀ j rest, s.jobs.live = j :: rest → t.jobs.live = { j with spoiled := min (j.spoiled + 1) 64 } :: rest
  logged : t.log.entries = s.log.entries ++
    [⟨.spoiled, s.transport.position, (s.jobs.live.head?.map Job.tag).getD 0, cause, some line, ch⟩]
  unsent : t.log.unsent = s.log.unsent + 1

/-- R82, R96, R106, R122, R148, R154, R156: what a fault of the recorder does, by where the run stands. -/
structure MetFault (cause : SpoilCause) (reason : HaltReason) (ch : Option Channel) (s t : State) : Prop where
  exposing : s.seq.phase = .exposing → Spoiled cause reason s.seq.lineCounter ch s t
  preparing : s.seq.phase = .preparing → Halted reason s t ∧ t.jobs = s.jobs ∧ t.log = s.log
  waiting : s.seq.phase = .between → s.run.state ≠ .stopped → Halted reason s t ∧ t.jobs = s.jobs ∧ t.log = s.log
  stopped : s.seq.phase = .between → s.run.state = .stopped →
    t.run = s.run ∧ t.seq = s.seq ∧ t.jobs = s.jobs ∧ t.log = s.log

/-- What a halt leaves alone: it lays down the sequencer's work, gives up the prefetcher's claim, and expects
no reading; everything outside the run, the sequencer, the drive, the head job's record, the log and the
HALT notice is unchanged (R43, R72, R107, R112). -/
structure HaltFrame (s t : State) : Prop where
  rest : t = { s with run := t.run, seq := t.seq, drive := t.drive, arbiter := t.arbiter, monitor := t.monitor,
                      jobs := t.jobs, log := t.log,
                      link := { s.link with notices := t.link.notices, transmitter := t.link.transmitter } }
  monitor : t.monitor = { s.monitor with channels := s.monitor.channels.map fun c => { c with expecting := false } }
  arbiter : ClaimWithdrawn s.arbiter t.arbiter
  notices : ∀ c, c ≠ .halt → t.link.notices.get c = s.link.notices.get c
  sending : (∀ again msg, s.link.transmitter ≠ some ⟨.flag .halt again, msg⟩) → t.link.transmitter = s.link.transmitter

/-- What a fault of the recorder leaves alone beside the run: where it halts a run, what a halt leaves alone, so that
every notice class but HALT, and a message being sent that is no HALT notice, is as it was (R43, R72, R112); in BETWEEN
with the run STOPPED it changes nothing at all, and raises no HALT. -/
structure RunTouched (s t : State) : Prop where
  halts : s.seq.phase ≠ .between ∨ s.run.state ≠ .stopped → HaltFrame s t
  stopped : s.seq.phase = .between → s.run.state = .stopped → t = s

/-- R122, R131: the transport has entered FAULT: outputs and timers off, the cause recorded, an Advance Frames
series answered with the pull-downs done, and the run met by the fault. -/
structure TransportFaulted (cause : TransportCause) (s t : State) : Prop where
  transport : t.transport = { s.transport with
    state := .fault cause, pullDownTimer := none, settleTimer := none, settleEnds := none, series := none }
  noSeries : s.transport.series = none → t.link.current = s.link.current
  series : ∀ x, s.transport.series = some x → t.link.current = s.link.current.map fun c =>
    { c with stage := .replyPending (.refuse .transportFault x.done) }
  met : MetFault .transportFault .transportFault none s t
  frame : RunTouched { s with transport := t.transport, link := { s.link with current := t.link.current } } t

/-- R148: the lock has been lost: the cause is recorded, the run is met by the loss, SCAN is pending where it is
enabled, and nothing else has changed. -/
structure LockLost (cause : LossCause) (s t : State) : Prop where
  scan : t.scan = { s.scan with state := .lost cause, noSignal := none }
  met : MetFault .scanLost .scanLost none s t
  notice : s.link.mask.scan = true → t.link.notices.scan = true
  frame : ∃ v, RunTouched { s with scan := t.scan } v ∧ t = v.raise .scan

/-! ## Facet syncs -/

/-- R136, R146: the period measured by an SOS `elapsed` ns after the previous one is good for a captured period. -/
def goodFor (elapsed tolerance p : Nat) : Bool :=
  decide ((max (elapsed / 10 * 10) p - min (elapsed / 10 * 10) p) * 1000000 ≤ p * tolerance)

/-- R136, R146: an SOS `elapsed` ns after the previous one, in LOCKED, that is passed on as the facet sync of the facet
whose captured period is `p`: its measured period is good, or is a miss that does not bring the miss counter to the
miss limit. -/
structure SyncPassed (elapsed p : Nat) (s : State) : Prop where
  released : s.resetPin = false
  locked : s.scan.state = .locked
  seen : s.scan.sosSeen = true
  facet : s.scan.facetCount < s.scan.geometry.facets
  captured : ∃ periods, s.scan.captured = some periods ∧ periods[s.scan.facetCount]? = some p
  held : goodFor elapsed s.scan.geometry.tolerance p = true ∨ s.scan.misses + 1 ≠ s.scan.geometry.missLimit

/-- R146, R147: the scan after such an SOS: facet count one higher, miss counter 0 after a good period and one higher
after a miss, the no-signal watchdog restarted. -/
def synced (elapsed p : Nat) (s : State) : State :=
  { s with scan := { s.scan with
      sosSeen := true
      period := some (elapsed / 10 * 10)
      facetCount := s.scan.facetCount + 1
      misses := if goodFor elapsed s.scan.geometry.tolerance p then 0 else s.scan.misses + 1
      noSignal := some (2 * s.scan.geometry.period) } }

/-- R57, R62, R100, R101, R102, R149: the drive of a line is laid out at its facet sync: delay and reference pulse
from offset, correction and trims; every pixel from the flash values, or from the line set at the head of the
queue. -/
structure LineDriven (line facet : Nat) (work : Work) (reel : Reel) (s : State) (d : LineDrive) : Prop where
  place : d.line = line ∧ d.facet = facet
  delay : d.delay = ((reel.offset : Int) + s.scan.corrections.getD facet 0).toNat
  noPulse : d.delay = 0 → d.pulse = none
  pulse : d.delay ≠ 0 → d.pulse = some (s.monitor.channels.map fun c => (2048 * c.trim + 2048) / 4096)
  flash : ∀ curve values ch, work = .flash curve values → d.pixels.get ch = .alike
    (pixelDrive s.placement (s.monitor.channels.get ch).trim
      (curveEntry s.curves s.freeEpoch curve ch (values.get ch)))
  expose : ∀ planes curve release set rest ch, work = .expose planes curve release → s.seq.queue = set :: rest →
    d.pixels.get ch = .each ((rowWords set.rows (planes.get ch)).map fun w =>
      pixelDrive s.placement (s.monitor.channels.get ch).trim
        (curveEntry s.curves s.freeEpoch curve ch (w.toNat % 4096)))

/-! ## What the sequencer does in BETWEEN -/

/-- R165: a channel after a trim update: where its mean is valid and not applied, the raw value from target and mean,
limited to a step of 64 and held within 3072..5120, is its trim, the mean is marked applied, and TRIM_LIMIT is set
where the clamp acts. Any other channel keeps its trim and marks. -/
def trimmed (targets : Option PowerTargets) (ch : Channel) (c : MonitorChannel) : MonitorChannel :=
  match targets with
  | some p =>
    if c.valid = true ∧ c.applied = false then
      let stepped := max (c.trim - 64) (min (c.trim + 64) (c.trim * (p.channels.get ch).target / max c.mean 1))
      { c with
        trim := max 3072 (min 5120 stepped)
        applied := true
        flags := { c.flags with trimLimit := c.flags.trimLimit || decide (stepped < 3072 ∨ 5120 < stepped) } }
    else c
  | none => c

/-- R161: a trim update sets the TRIM_LIMIT flag of some channel from clear. -/
def State.trimLimits (s : State) : Prop :=
  ∃ ch, (trimmed s.monitor.targets ch (s.monitor.channels.get ch)).flags ≠ (s.monitor.channels.get ch).flags

/-- R92, R165, R161: on entry to PREPARING from the state `s` the trim update has been made, and the MONITOR notice is
raised where it has set a flag from clear. No reading is expected. -/
structure TrimsUpdated (s t : State) : Prop where
  targets : t.monitor.targets = s.monitor.targets
  channel : ∀ ch, t.monitor.channels.get ch =
    { trimmed s.monitor.targets ch (s.monitor.channels.get ch) with expecting := false }
  quiet : ¬ s.trimLimits → t.link = s.link
  limited : s.trimLimits → t.link = (s.raise .monitor).link

/-- The sequencer's items on entry to PREPARING (R90). -/
def Sequencer.entered (leadIn : Nat) : Sequencer := ⟨.preparing, 0, none, [], 0, false, none, some leadIn⟩

/-- R90, R92, R93: a frame of the job `j` is in PREPARING: the sequencer's items, the lead-in timer started, the
trims updated with their marks, and the first line set begun where line 0 lies below every plane's fill mark, with the
read of its first plane put to the arbiter. (The line counter 0 and the clear marks are log 38.) -/
structure Preparing (j : Job) (s t : State) : Prop where
  items : { t.seq with assembly := none } = Sequencer.entered s.run.leadIn
  run : t.run = s.run
  jobs : t.jobs = s.jobs
  blanked : t.drive = none
  trims : TrimsUpdated s t
  begun : ∀ reel, s.reel = some reel → 0 < reel.lines → j.work.planes ≠ [] →
    (∀ sel ∈ j.work.planes, ∃ p, Table.get s.planes sel.wire = some p ∧ 0 < p.fill) →
    (∀ c d, s.arbiter.access ≠ some (.read c d)) → t.seq.assembly = some ⟨0, [], j.work.planes⟩
  notBegun : (j.work.planes = [] ∨ ∃ sel ∈ j.work.planes, ∀ p, Table.get s.planes sel.wire = some p → p.fill = 0) →
    t.seq.assembly = none
  claimed : ∃ a, ClaimWithdrawn s.arbiter a ∧
    Prefetched { s with seq := Sequencer.entered s.run.leadIn, arbiter := a } t

/-- R89 to R91, R123: what the sequencer does in BETWEEN in RUNNING. With no head job it halts or waits; else it
prepares the head job's frame, with a pull-down where the gate is USED, and the run halts where a monitor clock
is lost or the pull-down is refused. (A BLANK frame that finds fresh film registered is passed at once, R98: that is
`GoesOn`. That a pending stop with no head job comes before QUEUE_EMPTY is log 18; that a refused pull-down halts the
run after the trim update and the first claim is log 17; the sequencer's items while the run waits are log 38.) -/
structure NextFrame (s t : State) : Prop where
  stops : s.jobs.live = [] → s.run.pendingStop ≠ .none →
    Halted .stopRequest s t ∧ HaltFrame s t ∧ t.jobs = s.jobs
  ends : s.jobs.live = [] → s.run.pendingStop = .none → s.run.mode = .endOnEmpty →
    Halted .queueEmpty s t ∧ HaltFrame s t ∧ t.jobs = s.jobs
  waits : s.jobs.live = [] → s.run.pendingStop = .none → s.run.mode = .holdOnEmpty →
    t.run = s.run ∧ t.seq = ⟨.between, 0, none, [], 0, false, none, none⟩ ∧ t.drive = none ∧
      t.jobs = s.jobs ∧ t.transport = s.transport ∧ HaltFrame s t ∧ t.link = s.link
  clock : s.jobs.live ≠ [] → (∃ ch, (s.monitor.channels.get ch).lost = true) →
    Halted .monitorLost s t ∧ HaltFrame s t ∧ t.jobs = s.jobs
  fresh : ∀ j rest, s.jobs.live = j :: rest → (∀ ch, (s.monitor.channels.get ch).lost = false) →
    s.transport.gate = .fresh → j.work ≠ .blank ∨ s.transport.state ≠ .registered →
    Preparing j s t ∧ t.transport = s.transport
  pulls : ∀ j rest, s.jobs.live = j :: rest → (∀ ch, (s.monitor.channels.get ch).lost = false) →
    s.transport.gate = .used → s.transport.state = .registered → s.pins.levels.endSensor = false →
    (∀ r, s.reel = some r → s.transport.position ≠ r.capacity - 1) →
    Preparing j s t ∧ t.transport =
      { s.transport with state := .advancing, perfs := 0, pullDownTimer := some s.transport.timeout }
  atEnd : ∀ j rest, s.jobs.live = j :: rest → (∀ ch, (s.monitor.channels.get ch).lost = false) →
    s.transport.gate = .used → s.transport.state = .registered →
    (s.pins.levels.endSensor = true ∨ ∃ r, s.reel = some r ∧ s.transport.position = r.capacity - 1) →
    Halted .endOfReel s t ∧ t.jobs = s.jobs ∧ t.transport = s.transport ∧ ∃ v, Preparing j s v ∧ HaltFrame v t
  notReady : ∀ j rest, s.jobs.live = j :: rest → (∀ ch, (s.monitor.channels.get ch).lost = false) →
    s.transport.gate = .used → s.transport.state ≠ .registered →
    Halted .transportFault s t ∧ t.jobs = s.jobs ∧ t.transport = s.transport ∧ ∃ v, Preparing j s v ∧ HaltFrame v t
  frame : t.planes = s.planes ∧ t.curves = s.curves ∧ t.store = s.store ∧ t.reel = s.reel ∧ t.pins = s.pins ∧
    t.scan = s.scan ∧ t.lasers = s.lasers ∧ t.log = s.log ∧ t.placement = s.placement ∧ t.link.current = s.link.current

/-- R105 steps 2 to 4: the frame end that has left the state `u`: the run halts at a pending stop that is due (`ended`:
a job has just ended COMPLETE), comes to rest, or goes on with the next frame on film that is USED. (The sequencer's
items at rest are log 38.) -/
structure FrameEnded (ended : Prop) (u t : State) : Prop where
  stops : u.run.pendingStop = .atFrame ∨ u.run.pendingStop = .now ∨ (u.run.pendingStop = .atJob ∧ ended) →
    Halted .stopRequest u t ∧ HaltFrame u t ∧ t.jobs = u.jobs
  rests : u.run.pendingStop = .none ∨ (u.run.pendingStop = .atJob ∧ ¬ ended) → u.run.state = .pausing →
    t.run = { u.run with state := .paused } ∧ t.seq = ⟨.between, 0, none, [], 0, false, none, none⟩ ∧
      t.drive = none ∧ t.jobs = u.jobs ∧ HaltFrame u t ∧ t.link = u.link
  goesOn : u.run.pendingStop = .none ∨ (u.run.pendingStop = .atJob ∧ ¬ ended) → u.run.state ≠ .pausing →
    NextFrame u t

/-- R98, R105, R16: the Job Store after the BLANK frame of the head job `j` has been passed at frame position `pos`:
frames done and positions are written, and at its repeat count the job ends COMPLETE. -/
def blankCounted (j : Job) (rest results : List Job) (pos : Nat) : JobStore :=
  let passed : Job := { j with
    framesDone := j.framesDone + 1
    positions := some ⟨(j.positions.map Positions.first).getD pos, pos⟩ }
  if j.framesDone + 1 = j.repeatCount then ⟨rest, results ++ [{ passed with outcome := some .complete }]⟩
  else ⟨passed :: rest, results⟩

/-- R89 to R91, R98: what the sequencer does in BETWEEN in RUNNING. A BLANK frame that finds fresh film registered is
passed at entry to PREPARING, after the trim update, and the run meets its frame end. (The sequencer's items at the
passing are log 38.) -/
structure GoesOn (s t : State) : Prop extends NextFrame s t where
  blank : ∀ j rest, s.jobs.live = j :: rest → j.work = .blank → (∀ ch, (s.monitor.channels.get ch).lost = false) →
    s.transport.gate = .fresh → s.transport.state = .registered →
    ∃ (u : State) (a : Arbiter),
      u = { s with
        jobs := blankCounted j rest s.jobs.results s.transport.position
        seq := ⟨.between, 0, none, [], 0, false, none, none⟩
        drive := none
        transport := { s.transport with gate := .used }
        arbiter := u.arbiter
        monitor := u.monitor
        link := u.link } ∧
      ClaimWithdrawn s.arbiter a ∧ Chosen 0 a u.arbiter ∧ TrimsUpdated s u ∧
      FrameEnded (j.framesDone + 1 = j.repeatCount) u t

/-! ## Checks that Start Run and Resume Run share -/

/-- R69: the length in ps of one exposed line: its pixels after the latest active start of any facet. -/
def exposedLine (width offset pixelPeriod : Nat) (corrections : List Int) : Nat :=
  let starts := corrections.map fun c => ((offset : Int) + c).toNat
  width * pixelPeriod + starts.foldl max (starts.headD offset) * 1000

/-- R67 from check 4 on, and R68: a reel, room in the Spoil Log, and the seven readiness checks. -/
def readyRows (mode : RunMode) (s : State) : List Check :=
  [ (s.reel.isNone, .noReel, 0),
    (decide (64 ≤ s.log.entries.length), .logFull, 64),
    (decide (mode = .endOnEmpty ∧ s.jobs.live = []), .notReady, 1),
    (decide (s.scan.state ≠ .locked), .notReady, 2),
    (decide (s.pins.levels.interlock = false), .notReady, 3),
    (decide (s.lasers.red ≠ .ready), .notReady, 0x0004),
    (decide (s.lasers.green ≠ .ready), .notReady, 0x0104),
    (decide (s.lasers.blue ≠ .ready), .notReady, 0x0204),
    (s.monitor.channels.red.lost, .notReady, 0x0005),
    (s.monitor.channels.green.lost, .notReady, 0x0105),
    (s.monitor.channels.blue.lost, .notReady, 0x0205),
    (s.reel.any fun r => decide (s.scan.geometry.period * 1000 <
        exposedLine r.width r.offset s.scan.geometry.pixelPeriod s.scan.corrections), .notReady, 6),
    (decide (s.transport.state ≠ .registered), .notReady, 7) ]

/-- R67, R83: a lead-in time is 0 or lies within 10..10,000; 0 stands for 2,000. -/
def leadInOk (h : Half) : Bool := decide (h.toNat = 0 ∨ (10 ≤ h.toNat ∧ h.toNat ≤ 10000))

/-- R67: the lead-in time in ms that a field stands for. -/
def leadInTime (h : Half) : Nat := if h.toNat = 0 then 2000 else h.toNat

/-! ## Lasers and readings -/

/-- R153, R155: a channel mask is not 0 and has no bit above bit 2. -/
def maskOk (mask : Byte) : Bool := decide (1 ≤ mask.toNat ∧ mask.toNat ≤ 7)

/-- R153: whether a mask names a channel: bit 0 red, bit 1 green, bit 2 blue. -/
def named (mask : Byte) (ch : Channel) : Bool := mask.getLsbD ch.code

/-- R161: a reading lies outside a window of a target. -/
def outside (r target window : Nat) : Bool :=
  decide (target * window < (if r ≤ target then target - r else r - target) * 4096)

/-- R159: the filter of a channel has taken the OSR-th sample of its reading and counted `ones`: the first `osr` rising
edges of its bit clock after the facet sync all come before the active start, `pulse` ps after the sync, and the
bitstream is 1 at `ones` of them. -/
def ReadingCompletes (osr pulse : Nat) (edges : List ClockEdge) (ones : Nat) : Prop :=
  ∃ taken later, edges.filter (fun e => e.rising && decide (0 < e.time)) = taken ++ later ∧ taken.length = osr ∧
    (∀ e ∈ taken, e.time < pulse) ∧ ones = (taken.filter ClockEdge.bit).length

/-- R159, R161, R163, R164: one channel after its filter has counted `ones` at the OSR-th sample, or has completed no
reading. -/
def readingTaken (osr : Nat) (t : Target) (ones : Option Nat) (c : MonitorChannel) : MonitorChannel :=
  match ones with
  | none => c
  | some n =>
    if c.expecting = true then
      let r := n * 65535 / osr
      { c with
        latest := r
        isFresh := true
        breaches := if outside r t.target t.hard then c.breaches + 1 else 0
        sum := c.sum + r
        count := c.count + 1
        expecting := false
        flags := { c.flags with
          softHigh := c.flags.softHigh || (outside r t.target t.soft && decide (t.target < r))
          softLow := c.flags.softLow || (outside r t.target t.soft && decide (r < t.target))
          hardHigh := c.flags.hardHigh || (outside r t.target t.hard && decide (t.target < r))
          hardLow := c.flags.hardLow || (outside r t.target t.hard && decide (r < t.target)) } }
    else c

/-- R163: the channel's breach counter has risen to the hard count. -/
def breached (hardCount : Nat) (before after : MonitorChannel) : Prop :=
  before.breaches < after.breaches ∧ hardCount ≤ after.breaches

/-! ## The records of replies and notices (R185, R191 to R193) -/

/-- The bytes of a record from an offset on begin with `bytes`. -/
def At (record : List Byte) (offset : Nat) (bytes : List Byte) : Prop :=
  (record.drop offset).take bytes.length = bytes

/-- The number whose bits are given, bit 0 first. -/
def bits : List Bool → Nat
  | [] => 0
  | b :: rest => (if b then 1 else 0) + 2 * bits rest

/-- R191, R5: the job record, by offset. Absent fields are 0, with their presence marked clear (R190). -/
structure JobLaidOut (j : Job) (r : List Byte) : Prop where
  size : r.length = 30
  tag : At r 0 (u16 j.tag)
  expose : ∀ planes curve release, j.work = .expose planes curve release →
    At r 2 (u8 0) ∧ At r 3 (u8 (bits [true, true, false, true, true, j.positions.isSome, j.outcome.isSome])) ∧
    At r 4 (u16 planes.red.wire ++ u16 planes.green.wire ++ u16 planes.blue.wire) ∧ At r 10 (u8 curve) ∧
    At r 11 [0, 0, 0, 0, 0, 0] ∧ At r 18 (u8 (if release then 1 else 0)) ∧ At r 23 (u16 j.saturated)
  flash : ∀ curve values, j.work = .flash curve values →
    At r 2 (u8 1) ∧ At r 3 (u8 (bits [false, true, true, false, true, j.positions.isSome, j.outcome.isSome])) ∧
    At r 4 [0, 0, 0, 0, 0, 0] ∧ At r 10 (u8 curve) ∧
    At r 11 (u16 values.red ++ u16 values.green ++ u16 values.blue) ∧ At r 18 [0] ∧ At r 23 (u16 j.saturated)
  blank : j.work = .blank →
    At r 2 (u8 2) ∧ At r 3 (u8 (bits [false, false, false, false, false, j.positions.isSome, j.outcome.isSome])) ∧
    At r 4 [0, 0, 0, 0, 0, 0] ∧ At r 10 [0] ∧ At r 11 [0, 0, 0, 0, 0, 0] ∧ At r 18 [0] ∧ At r 23 [0, 0]
  repeats : At r 17 (u8 (if j.repeatCount = 256 then 0 else j.repeatCount))
  progress : At r 19 (u16 j.framesDone) ∧ At r 21 (u8 j.spoiled) ∧ At r 22 (u8 j.suspect)
  positions : ∀ p, j.positions = some p → At r 25 (u16 p.first ++ u16 p.last)
  noPositions : j.positions = none → At r 25 [0, 0, 0, 0]
  outcome : ∀ o, j.outcome = some o → At r 29 (u8 (1 + [JobOutcome.complete, .cancelled, .flushed].idxOf o))
  noOutcome : j.outcome = none → At r 29 [0]

/-- R192: a Spoil Log entry, by offset. -/
structure EntryLaidOut (e : SpoilEntry) (r : List Byte) : Prop where
  size : r.length = 10
  kind : At r 0 (u8 ([SpoilKind.spoiled, .suspect].idxOf e.kind))
  cause : At r 1 (u8 (1 + [SpoilCause.underrun, .powerFault, .scanLost, .laserFault, .interlock, .transportFault,
    .stopNow, .softReset, .monitorLost].idxOf e.cause))
  presence : At r 2 (u8 (bits [e.line.isSome, e.channel.isSome]))
  place : At r 3 (u16 e.position) ∧ At r 5 (u16 e.tag)
  line : At r 7 (u16 (e.line.getD 0))
  channel : ∀ ch, e.channel = some ch → At r 9 (u8 ([Channel.red, .green, .blue].idxOf ch))
  noChannel : e.channel = none → At r 9 [0]

/-- R192: the halt record, by offset from `at_` on; six zeros where it is absent. -/
structure HaltLaidOut (h : Option HaltRecord) (r : List Byte) (at_ : Nat) : Prop where
  absent : h = none → At r at_ [0, 0, 0, 0, 0, 0]
  record : ∀ x, h = some x → At r at_ (u8 1) ∧
    At r (at_ + 1) (u8 (1 + [HaltReason.stopRequest, .queueEmpty, .underrun, .dataLate, .powerFault, .monitorLost,
      .scanLost, .laserFault, .interlock, .transportFault, .endOfReel, .softReset].idxOf x.reason)) ∧
    At r (at_ + 2) (u16 x.position) ∧ At r (at_ + 4) (u16 (x.head.getD 0))

/-- R193: the monitor flags of the three channels and then their trims, nine bytes from `at_` on. -/
structure MonitorLaidOut (m : Monitor) (r : List Byte) (at_ : Nat) : Prop where
  flags : ∀ ch, let f := (m.channels.get ch).flags
    At r (at_ + ch.code) (u8 (bits [f.softHigh, f.softLow, f.hardHigh, f.hardLow, f.clockLost, f.trimLimit]))
  trims : ∀ ch, At r (at_ + 3 + 2 * ch.code) (u16 (m.channels.get ch).trim)

/-- R193: the eight input lines in one byte. -/
def lineByte (l : Lines) : List Byte :=
  u8 (bits [l.filmPresent, l.tensionOk, l.gateClosed, l.endSensor, l.interlock, l.laserReady.red, l.laserReady.green,
    l.laserReady.blue])

/-- R185, R141: the code of a scan state, and the code of its loss cause, 0 outside LOST. -/
def scanCodes (c : ScanState) : List Byte :=
  match c with
  | .unlocked => u8 0 ++ u8 0
  | .calibrating => u8 1 ++ u8 0
  | .locked => u8 2 ++ u8 0
  | .lost cause => u8 3 ++ u8 (1 + [LossCause.period, .facetCount, .noSignal].idxOf cause)

/-- R185: the SCAN content, by offset: scan state, loss cause, outcome, revolutions completed, revolution, pulse count,
facet, period and deadline, a field absent for the outcome being 0. -/
structure ScanLaidOut (c : Scan) (r : List Byte) : Prop where
  size : r.length = 12
  state : At r 0 (scanCodes c.state)
  none : c.outcome = .none → At r 2 (List.replicate 10 0)
  locked : ∀ done, c.outcome = .locked done → At r 2 (u8 1 ++ u8 done ++ List.replicate 8 0)
  facetCount : ∀ done revolution pulses, c.outcome = .facetCount done revolution pulses →
    At r 2 (u8 2 ++ u8 done ++ u8 revolution ++ u8 pulses ++ List.replicate 6 0)
  outOfRange : ∀ done facet period, c.outcome = .outOfRange done facet period →
    At r 2 (u8 3 ++ u8 done) ∧ At r 4 [0, 0] ∧ At r 6 (u8 facet) ∧ At r 7 (u32 period) ∧ At r 11 [0]
  noSignal : ∀ done deadline, c.outcome = .noSignal done deadline →
    At r 2 (u8 4 ++ u8 done) ∧ At r 4 (List.replicate 7 0) ∧ At r 11 (u8 (1 + [Deadline.index, .sos].idxOf deadline))

/-- R193: the status record, by offset. -/
structure StatusLaidOut (s : State) (r : List Byte) : Prop where
  size : r.length = 40
  run : At r 0 (u8 ([RunState.stopped, .running, .pausing, .paused].idxOf s.run.state))
  phase : At r 1 (u8 ([Phase.between, .preparing, .exposing].idxOf s.seq.phase))
  mode : At r 2 (u8 ([RunMode.endOnEmpty, .holdOnEmpty].idxOf s.run.mode))
  stop : At r 3 (u8 ([StopMode.none, .atJob, .atFrame, .now].idxOf s.run.pendingStop))
  noHead : s.jobs.live = [] → At r 4 [0, 0]
  head : ∀ j rest, s.jobs.live = j :: rest → At r 4 (u16 j.tag)
  counts : At r 6 (u8 s.jobs.live.length) ∧ At r 7 (u8 s.jobs.results.length)
  reel : At r 8 (u8 (if s.reel = none then 0 else 1))
  position : At r 9 (u16 s.transport.position)
  gate : At r 11 (u8 ([Gate.fresh, .used].idxOf s.transport.gate))
  transport : (∀ cause, s.transport.state ≠ .fault cause) → At r 12 (u8 ([TransportState.empty, .opened, .advancing,
    .settling, .registered].idxOf s.transport.state)) ∧ At r 13 [0]
  fault : ∀ cause, s.transport.state = .fault cause → At r 12 (u8 5) ∧ At r 13 (u8 (1 +
    [TransportCause.filmLost, .tension, .perfTimeout, .gate].idxOf cause))
  scan : At r 14 (scanCodes s.scan.state)
  misses : At r 16 (u8 s.scan.misses)
  lasers : ∀ ch, At r (17 + ch.code) (u8 ([LaserState.off, .warming, .ready, .fault].idxOf (s.lasers.get ch)))
  interlock : At r 20 (u8 (if s.pins.levels.interlock then 1 else 0))
  monitor : MonitorLaidOut s.monitor r 21
  log : At r 30 (u8 s.log.entries.length)
  halt : HaltLaidOut s.run.halt r 31
  flags : At r 37 (u8 (bits [s.link.flags.crc, s.link.flags.framing, s.link.flags.overrun]))
  lines : At r 38 (lineByte s.pins.levels) ∧ At r 39 (lineByte s.pins.changed)

/-! ## Invariants -/

/-- R158 and what it rests on: a line is driven only in EXPOSING; in EXPOSING the interlock is CLOSED and
every channel READY; outside BETWEEN the run is RUNNING or PAUSING (R65, R87), and the RESET pin
released. -/
structure DriveSafe (s : State) : Prop where
  driven : s.drive.isSome → s.seq.phase = .exposing
  closed : s.seq.phase = .exposing → s.pins.levels.interlock = true
  ready : s.seq.phase = .exposing → s.lasers = Rgb.same .ready
  running : s.seq.phase ≠ .between → s.run.state = .running ∨ s.run.state = .pausing
  released : s.seq.phase ≠ .between → s.resetPin = false

/-- R165: every trim lies within 3072..5120. -/
def TrimsInRange (s : State) : Prop :=
  ∀ ch, 3072 ≤ (s.monitor.channels.get ch).trim ∧ (s.monitor.channels.get ch).trim ≤ 5120

/-- R170, R174: at most 64 entries, room for one more while a run is in progress, and no more unsent
notices than entries. -/
structure LogBounded (s : State) : Prop where
  size : s.log.entries.length ≤ 64
  room : s.run.state ≠ .stopped → s.log.entries.length < 64
  unsent : s.log.unsent ≤ s.log.entries.length
  running : s.seq.phase ≠ .between → s.run.state ≠ .stopped

/-- R1, R8: LIVE and RESULT slots number at most 32, and no two of them carry the same tag. -/
structure JobsBounded (s : State) : Prop where
  slots : s.jobs.live.length + s.jobs.results.length ≤ 32
  tags : ((s.jobs.live ++ s.jobs.results).map Job.tag).Nodup

/-- How many LIVE jobs name a plane descriptor (R10). -/
def State.planeUsers (s : State) (wire : Nat) : Nat :=
  s.jobs.live.countP fun j => (j.work.planes.map Selector.wire).contains wire

/-- How many LIVE jobs name a curve set (R10). -/
def State.curveUsers (s : State) (set : Nat) : Nat :=
  s.jobs.live.countP fun j => decide (j.work.curve = some set)

/-- The indices of a selector lie within its table (R24). -/
def Selector.inTable : Selector → Prop
  | .global i => i < 64
  | .reel i => i < 192

/-- R10: every use count equals the number of LIVE jobs that name the descriptor or set; and every LIVE
job names defined descriptors (R26), REEL ones only while a reel is open (R24), and READY sets (R47). -/
structure UsesCounted (s : State) : Prop where
  planes : ∀ e ∈ s.planes, e.2.use = s.planeUsers e.1
  curves : ∀ e ∈ s.curves, e.2.use = s.curveUsers e.1
  defined : ∀ j ∈ s.jobs.live, ∀ sel ∈ j.work.planes, sel.inTable ∧ (Table.get s.planes sel.wire).isSome
  loaded : ∀ j ∈ s.jobs.live, ∀ n, j.work.curve = some n →
    ∃ c, Table.get s.curves n = some c ∧ c.ready = true
  noReel : s.reel = none → s.jobs.live = []
  planesWf : Table.wf s.planes
  curvesWf : Table.wf s.curves

/-- The line slots of two defined planes have none in common (R28). -/
def Plane.disjoint (p q : Plane) : Prop := p.base + p.limit ≤ q.base ∨ q.base + q.limit ≤ p.base

/-- R28: defined planes share no slot and lie within slots 0..65,535; R26: limit and width lie within
their ranges. -/
structure PlanesDisjoint (s : State) : Prop where
  disjoint : s.planes.Pairwise fun x y => x.2.disjoint y.2
  inStore : ∀ e ∈ s.planes, 1 ≤ e.2.limit ∧ e.2.limit ≤ 4096 ∧ e.2.base + e.2.limit ≤ 65536
  width : ∀ e ∈ s.planes, 256 ≤ e.2.width ∧ e.2.width ≤ 4096 ∧ e.2.width % 256 = 0
  sorted : Table.wf s.planes

/-- A Line Data write waits at the arbiter or is in progress (R37). -/
def State.writing (s : State) (w : WriteClaim) : Prop :=
  s.arbiter.writeWaiting = some w ∨ s.arbiter.access = some (.write w)

/-- R180, R183: what waits for work outside the link is the current request: a Line Data write in flight or
an Advance Frames series in flight, never both; and a reply in transmission is the reply to the current
request. -/
structure WorkAwaited (s : State) : Prop where
  write : ∀ w, s.writing w → ∃ m, s.link.current = some ⟨m, .waiting⟩
  series : s.transport.series.isSome → ∃ m, s.link.current = some ⟨m, .waiting⟩
  exclusive : s.transport.series.isSome → ∀ w, ¬ s.writing w
  one : ∀ w, s.arbiter.access = some (.write w) → s.arbiter.writeWaiting = none
  reply : ∀ r m, s.link.transmitter = some ⟨.reply r, m⟩ → ∃ q, s.link.current = some ⟨q, .replySending⟩

/-- R26, R34, R37: no fill mark exceeds its limit, and the plane a write in flight is for is not FULL. -/
structure FillsBounded (s : State) : Prop extends WorkAwaited s where
  fill : ∀ e ∈ s.planes, e.2.fill ≤ e.2.limit
  room : ∀ w, s.writing w → ∀ p, Table.get s.planes w.sel.wire = some p → p.fill < p.limit
  sorted : Table.wf s.planes

/-- R178: at most two places of the receive buffer are taken. -/
def PlacesBounded (s : State) : Prop := s.link.places ≤ 2

/-- R126: while a reel is open the frame position lies below the capacity, with room for the pull-down in
flight. -/
structure PositionInReel (s : State) : Prop where
  position : ∀ r, s.reel = some r → s.transport.position < r.capacity
  moving : ∀ r, s.reel = some r →
    s.transport.state = .advancing ∨ (s.transport.state = .settling ∧ s.transport.settleEnds = some .pullDown) →
      s.transport.position + 1 < r.capacity

/-- R88: the Line Prefetch Queue holds at most 8 line sets, in ascending consecutive line order up to the
prefetch cursor, and a set in assembly is the one at the cursor. -/
structure QueueInOrder (s : State) : Prop where
  size : s.seq.queue.length + (if s.seq.assembly.isSome then 1 else 0) ≤ 8
  lines : s.seq.queue.map LineSet.line = (List.range s.seq.queue.length).map (s.seq.cursor - s.seq.queue.length + ·)
  cursor : s.seq.queue.length ≤ s.seq.cursor
  assembly : ∀ a, s.seq.assembly = some a → a.line = s.seq.cursor

/-- The frame store is in its canonical form (R27). -/
def StoreCanonical (s : State) : Prop := Memory.wf s.store

end Sys2Proof.Machine
end

