-- ==== Sys2Proof/Certificates/Slice0/Obligations.lean ====
section
/-! DEFINITION. The statements about the PX-340 for the provers, chapter by chapter of the manual. -/

section Slice0Statements

open Sys2Proof Sys2Proof.Machine

/-! ## The queue and the commands -/

/-- A step carries out the command at the front of the queue on the state with the queue's rest. The idle
step on an empty queue is the model's choice (log 1). -/
def Obligations.StepCarriesOutFront : Prop :=
  (∀ (c : Instr) (rest : List Instr) (s : State),
    step { s with pending := c :: rest } = exec c { s with pending := rest }) ∧
  (∀ s : State, step { s with pending := [] } = .next { s with pending := [] })

/-- No command stops the machine (the model's reading of the manual as a whole, log 27), none touches the queue of
waiting commands (the model's own queue, logs 1 and 33), and none but the end of a Line Data write and the RESET pin
changes what any line of the frame store reads as. -/
def Obligations.EveryCommandGoesOn : Prop :=
  ∀ (c : Instr) (s : State), ∃ t, exec c s = .next t ∧ t.pending = s.pending ∧
    (c ≠ .lineDataWriteComplete → c ≠ .hardwareReset → ∀ slot width,
      Memory.readLine t.store t.freeEpoch slot width = Memory.readLine s.store s.freeEpoch slot width)

/-! ## Plane Tables (02) -/

/-- R29, R30: the checks of Define Plane in order, and the descriptor it defines. -/
def Obligations.DefinePlaneFillsDescriptor : Prop :=
  ∀ (rt : Byte) (sel base limit width : Half) (m : Message) (s : State),
    s.Handed (.definePlane rt sel base limit width) m →
    let old := Table.get s.planes sel.toNat
    let shared := s.planes.find? fun e =>
      decide (base.toNat < e.2.base + e.2.limit ∧ e.2.base < base.toNat + limit.toNat)
    let checks : List Check := selectorChecks sel s ++
      [ (old.isSome, .alreadyDefined, (old.map Plane.base).getD 0),
        (decide (¬ (1 ≤ limit.toNat ∧ limit.toNat ≤ 4096)), .badValue, 2),
        (decide (¬ (256 ≤ width.toNat ∧ width.toNat ≤ 4096 ∧ width.toNat % 256 = 0)), .badValue, 3),
        (decide (65536 < base.toNat + limit.toNat), .bounds, base.toNat + limit.toNat - 65536),
        (shared.isSome, .overlap, (shared.map Prod.fst).getD 0) ]
    let plane : Plane := { base := base.toNat, limit := limit.toNat, width := width.toNat, fill := 0, use := 0 }
    FirstRefusal (.definePlane rt sel base limit width) m s checks ∧
    (passes checks → Accepted (.definePlane rt sel base limit width) m s
      { s with planes := Table.put s.planes sel.toNat plane } [])

/-- R31: Undefine Plane: the descriptor alone becomes UNDEFINED. R32: Rewind Plane: the fill mark becomes 0, and with
it the state FILLING. Nothing else changes. -/
def Obligations.UndefineAndRewindPlane : Prop :=
  (∀ (rt : Byte) (sel : Half) (m : Message) (s : State), s.Handed (.undefinePlane rt sel) m →
     FirstRefusal (.undefinePlane rt sel) m s (unusedPlaneChecks sel s) ∧
     (passes (unusedPlaneChecks sel s) → ∃ planes,
       Accepted (.undefinePlane rt sel) m s { s with planes := planes } [] ∧
       Table.get planes sel.toNat = none ∧ ∀ k, k ≠ sel.toNat → Table.get planes k = Table.get s.planes k)) ∧
  (∀ (rt : Byte) (sel : Half) (m : Message) (s : State), s.Handed (.rewindPlane rt sel) m →
     FirstRefusal (.rewindPlane rt sel) m s (unusedPlaneChecks sel s) ∧
     (passes (unusedPlaneChecks sel s) → ∃ planes,
       Accepted (.rewindPlane rt sel) m s { s with planes := planes } [] ∧
       Table.get planes sel.toNat = (Table.get s.planes sel.toNat).map (fun p => { p with fill := 0 }) ∧
       ∀ k, k ≠ sel.toNat → Table.get planes k = Table.get s.planes k))

/-- R33: Query Plane reports a descriptor in ten bytes; an UNDEFINED one reads as zeros. R55: Query Curve reports a
set's state, cursors and use count in eight bytes. Neither changes anything else. -/
def Obligations.PlaneAndCurveQueriesReport : Prop :=
  (∀ (rt : Byte) (sel : Half) (m : Message) (s : State), s.Handed (.queryPlane rt sel) m →
     FirstRefusal (.queryPlane rt sel) m s (selectorChecks sel s) ∧
     (passes (selectorChecks sel s) → ∀ d, Table.get s.planes sel.toNat = d →
       Accepted (.queryPlane rt sel) m s s
         (match d with
           | none => List.replicate 10 0
           | some p =>
             u8 (if p.fill = p.limit then 2 else 1) ++ u16 p.base ++ u16 p.limit ++ u16 p.width ++
               u16 p.fill ++ u8 p.use))) ∧
  (∀ (rt set : Byte) (m : Message) (s : State), s.Handed (.queryCurve rt set) m →
     (15 < set.toNat → Refused (.queryCurve rt set) m s .badValue 1) ∧
     (set.toNat ≤ 15 → Accepted (.queryCurve rt set) m s s
       (match Table.get s.curves set.toNat with
         | none => List.replicate 8 0
         | some c =>
           u8 (if c.ready then 2 else 1) ++ u16 c.entries.red.length ++ u16 c.entries.green.length ++
             u16 c.entries.blue.length ++ u8 c.use)))

/-- R36, R37: the checks of Line Data in order; then the write is put to the arbiter, which serves it at
once where the frame store is idle and no read claim waits, and the reply waits for it. -/
def Obligations.LineDataClaimsWrite : Prop :=
  ∀ (rt : Byte) (sel line count : Half) (words : List Half) (m : Message) (s : State),
    s.Handed (.lineData rt sel line count words) m →
    let d := Table.get s.planes sel.toNat
    let checks : List Check := selectorChecks sel s ++
      [ (d.isNone, .notDefined, sel.toNat),
        (d.any fun p => decide (p.fill = p.limit), .busy, (d.map Plane.fill).getD 0),
        (d.any fun p => decide (line.toNat ≠ p.fill), .outOfOrder, (d.map Plane.fill).getD 0),
        (d.any fun p => decide (count.toNat ≠ p.width), .badLength, (d.map Plane.width).getD 0) ]
    FirstRefusal (.lineData rt sel line count words) m s checks ∧
    (passes checks → ∃ p x arbiter, d = some p ∧ x.wire = sel.toNat ∧
      exec (.lineData rt sel line count words) s = .next { s with
        link := { s.link with current := some ⟨m, .waiting⟩ }
        arbiter := arbiter } ∧
      (s.arbiter.access = none → s.arbiter.readWaiting = none →
        arbiter = { s.arbiter with access := some (.write ⟨x, p.base + line.toNat, words⟩), writeWaiting := none }) ∧
      (s.arbiter.access.isSome → arbiter = { s.arbiter with writeWaiting := some ⟨x, p.base + line.toNat, words⟩ }))

/-- R38, R39: a completed write: its words are stored, every other slot reads as before, the fill mark rises
and the reply carries it; where the descriptor was undefined meanwhile, the request is refused. R41, R42, R93: the
prefetcher's conditions are then examined with the fill mark raised, and the arbiter chooses: a read that waits is
served, since the prefetcher is then the claimant not served last. -/
def Obligations.LineDataWriteStoresLine : Prop :=
  ∀ (s : State) (m : Message) (w : WriteClaim),
    s.resetPin = false → s.link.current = some ⟨m, .waiting⟩ → s.arbiter.access = some (.write w) →
    ∃ t, exec .lineDataWriteComplete s = .next t ∧
      Memory.readLine t.store t.freeEpoch w.slot w.words.length = w.words ∧
      (∀ slot width, slot ≠ w.slot →
        Memory.readLine t.store t.freeEpoch slot width = Memory.readLine s.store s.freeEpoch slot width) ∧
      (∀ width, w.words.length ≤ width →
        (Memory.readLine t.store t.freeEpoch w.slot width).drop w.words.length =
          (Memory.readLine s.store s.freeEpoch w.slot width).drop w.words.length) ∧
      (∀ p, Table.get s.planes w.sel.wire = some p →
        t.planes = Table.put s.planes w.sel.wire { p with fill := p.fill + 1 } ∧
        t.link = { s.link with current := some ⟨m, .replyPending (.accept
          (u16 (p.fill + 1) ++ u8 (if p.fill + 1 = p.limit then 2 else 1)))⟩ }) ∧
      (Table.get s.planes w.sel.wire = none →
        t.planes = s.planes ∧
        t.link = { s.link with current := some ⟨m, .replyPending (.refuse .notDefined w.sel.wire)⟩ }) ∧
      t.arbiter.lastServed = .planeWriter ∧
      (∀ r, s.arbiter.readWaiting = some r →
        t.arbiter = { s.arbiter with access := some (.read r false), readWaiting := none, lastServed := .planeWriter } ∧
          t.seq = s.seq) ∧
      Prefetched { s with
        planes := t.planes, arbiter := { s.arbiter with access := none, lastServed := .planeWriter } } t ∧
      t = { s with store := t.store, planes := t.planes, link := t.link, arbiter := t.arbiter,
                   seq := { s.seq with assembly := t.seq.assembly } }

/-- R41, R43, R88, R93: a completed read: its words join the set in assembly, and the read of the next plane's line
is claimed; the last plane's row puts the set at the tail of the Line Prefetch Queue and raises the cursor, and the
prefetcher's conditions are examined; discarded words join nothing. R42: where a write waits beside the claim of the
next plane, the arbiter serves the read while fewer than four line sets are complete, and otherwise the write. -/
def Obligations.PrefetchReadFillsLineSet : Prop :=
  ∀ (s : State) (c : ReadClaim) (discard : Bool),
    s.resetPin = false → s.arbiter.access = some (.read c discard) →
    let served : Arbiter := { s.arbiter with access := none, lastServed := .prefetcher }
    ∃ t, exec .prefetchReadComplete s = .next t ∧
      t.arbiter.lastServed = .prefetcher ∧
      (discard = true → t.seq.queue = s.seq.queue ∧ t.seq.cursor = s.seq.cursor ∧
        Prefetched { s with arbiter := served } t) ∧
      (discard = false → ∀ a sel rest, s.seq.assembly = some a → a.rest = sel :: rest →
        let rows := a.rows ++ [⟨sel, Memory.readLine s.store s.freeEpoch c.slot c.width⟩]
        (rest = [] → t.seq.queue = s.seq.queue ++ [⟨a.line, rows⟩] ∧ t.seq.cursor = a.line + 1 ∧
          Prefetched { s with
            arbiter := served
            seq := { s.seq with
              assembly := none, queue := s.seq.queue ++ [⟨a.line, rows⟩], cursor := a.line + 1 } } t) ∧
        (∀ next more p reel, rest = next :: more → Table.get s.planes next.wire = some p → s.reel = some reel →
          let claim : ReadClaim := ⟨next, p.base + a.line, reel.width⟩
          t.seq = { s.seq with assembly := some ⟨a.line, rows, rest⟩ } ∧
          Chosen s.seq.queue.length { served with readWaiting := some claim } t.arbiter ∧
          (s.arbiter.writeWaiting = none → t.arbiter.access = some (.read claim false)) ∧
          (∀ w, s.arbiter.writeWaiting = some w →
            t.arbiter.access =
              (if s.seq.queue.length < 4 then some (.read claim false) else some (.write w))))) ∧
      t = { s with arbiter := t.arbiter,
                   seq := { s.seq with queue := t.seq.queue, cursor := t.seq.cursor, assembly := t.seq.assembly } }

/-! ## Curve Memory and drive options (03) -/

/-- R50: Begin Curve: the set is LOADING with all cursors 0. R54: Discard Curve: the set is EMPTY. Both ask
for a set number in range and a use count of 0. -/
def Obligations.BeginAndDiscardCurve : Prop :=
  ∀ (rt set : Byte) (m : Message) (s : State),
    let use := ((Table.get s.curves set.toNat).map CurveSet.use).getD 0
    let checks : List Check :=
      [(decide (15 < set.toNat), .badValue, 1), (decide (0 < use), .inUse, use)]
    (s.Handed (.beginCurve rt set) m →
      FirstRefusal (.beginCurve rt set) m s checks ∧
      (passes checks → Accepted (.beginCurve rt set) m s
        { s with curves := Table.put s.curves set.toNat { ready := false, entries := ⟨[], [], []⟩, use := 0 } } [])) ∧
    (s.Handed (.discardCurve rt set) m →
      FirstRefusal (.discardCurve rt set) m s checks ∧
      (passes checks → ∃ curves, Accepted (.discardCurve rt set) m s { s with curves := curves } [] ∧
        Table.get curves set.toNat = none ∧
        ∀ k, k ≠ set.toNat → Table.get curves k = Table.get s.curves k))

/-- R51, R52: the checks of Curve Data in order; then the entries are stored at the channel's cursor, which
rises by their number. -/
def Obligations.CurveDataLoadsEntries : Prop :=
  ∀ (rt set channel : Byte) (first count : Half) (entries : List WireEntry) (m : Message) (s : State),
    s.Handed (.curveData rt set channel first count entries) m →
    let c := Table.get s.curves set.toNat
    let ch : Channel := if channel.toNat = 0 then .red else if channel.toNat = 1 then .green else .blue
    let cursor := (c.map fun c => (c.entries.get ch).length).getD 0
    let bad := entries.findIdx? fun e => decide (4095 < e.level.toNat ∨ 16 < e.duty.toNat)
    let checks : List Check :=
      [ (decide (15 < set.toNat), .badValue, 1),
        (decide (2 < channel.toNat), .badValue, 2),
        (decide (¬ (1 ≤ count.toNat ∧ count.toNat ≤ 512)), .badValue, 3),
        (!(c.any fun c => !c.ready), .notReady, 0),
        (decide (first.toNat ≠ cursor), .outOfOrder, cursor),
        (decide (4096 < cursor + count.toNat), .bounds, cursor + count.toNat - 4096),
        (bad.isSome, .badValue, 0x8000 + (first.toNat + bad.getD 0)) ]
    FirstRefusal (.curveData rt set channel first count entries) m s checks ∧
    (passes checks → ∃ old curves, c = some old ∧
      Accepted (.curveData rt set channel first count entries) m s { s with curves := curves }
        (u16 (cursor + entries.length)) ∧
      (∃ new, Table.get curves set.toNat = some new ∧ new.ready = old.ready ∧ new.use = old.use ∧
        new.entries = old.entries.set ch
          (old.entries.get ch ++ entries.map fun e => ⟨e.level.toNat, e.duty.toNat⟩)) ∧
      ∀ k, k ≠ set.toNat → Table.get curves k = Table.get s.curves k)

/-- R53: Commit Curve is refused for a set that is not LOADING, for the first channel not fully loaded, and
for the first entry whose exposure product falls below the one before it; otherwise the set is READY. -/
def Obligations.CommitCurveMakesReady : Prop :=
  ∀ (rt set : Byte) (m : Message) (s : State), s.Handed (.commitCurve rt set) m →
    (15 < set.toNat → Refused (.commitCurve rt set) m s .badValue 1) ∧
    (set.toNat ≤ 15 →
      ((Table.get s.curves set.toNat).all CurveSet.ready → Refused (.commitCurve rt set) m s .notReady 0xFFFF) ∧
      (∀ c, Table.get s.curves set.toNat = some c → c.ready = false →
        let short (n : Nat) : Prop :=
          (n = 0 ∧ c.entries.red.length < 4096) ∨
          (n = 1 ∧ 4096 ≤ c.entries.red.length ∧ c.entries.green.length < 4096) ∨
          (n = 2 ∧ 4096 ≤ c.entries.red.length ∧ 4096 ≤ c.entries.green.length ∧ c.entries.blue.length < 4096)
        let falls (n : Nat) : Prop := ∃ v,
          (n = v ∧ fallsAt c.entries.red v) ∨ (n = 4096 + v ∧ fallsAt c.entries.green v) ∨
          (n = 8192 + v ∧ fallsAt c.entries.blue v)
        (∀ n, short n → Refused (.commitCurve rt set) m s .notReady n) ∧
        ((∀ n, ¬ short n) →
          c.entries.red.length ≤ 4096 → c.entries.green.length ≤ 4096 → c.entries.blue.length ≤ 4096 →
          (∀ n, falls n → (∀ k, k < n → ¬ falls k) → Refused (.commitCurve rt set) m s .notMonotonic n) ∧
          ((∀ n, ¬ falls n) → Accepted (.commitCurve rt set) m s
            { s with curves := Table.put s.curves set.toNat { c with ready := true } } []))))

/-- R57, R58, R60: the drive of one pixel: the trimmed level clamped at 4095, the duty, the first lit
sub-period by placement; an entry of duty 0 is dark and is not clamped. R60, R62, R100, R158: what a channel presents
to its modulator driver `t` ps after a line's facet sync: the reference pulse up to the active start, then each pixel
for its pixel period with the strobe from the start of its first lit sub-period to the end of its last and the
blanking output deasserted, dark pixels included; and blanked with level 0 after the last pixel and with no line
under way. (That the outputs are functions of the state and of the time within the line is log 24.) -/
def Obligations.PixelDriveFollowsEntry : Prop :=
  (∀ (s : State) (ch : Channel) (t : Nat), s.drive = none → s.output ch t = ⟨0, false, true⟩) ∧
  (∀ (s : State) (ch : Channel) (t : Nat) (l : LineDrive), s.drive = some l → 0 < s.scan.geometry.pixelPeriod →
    let period := s.scan.geometry.pixelPeriod
    let width := (s.reel.map Reel.width).getD 0
    let active := l.delay * 1000
    (∀ level, l.pulse = some level → t < active → s.output ch t = ⟨level.get ch, true, false⟩) ∧
    (∀ i d, i < width → active + i * period ≤ t → t < active + (i + 1) * period →
      l.pixels.get ch = .alike d ∨ (∃ ds, l.pixels.get ch = .each ds ∧ ds[i]? = some d) →
      s.output ch t = ⟨d.level,
        decide (d.start * period ≤ (t - (active + i * period)) * 16 ∧
          (t - (active + i * period)) * 16 < (d.start + d.duty) * period), false⟩) ∧
    (active + width * period ≤ t → s.output ch t = ⟨0, false, true⟩)) ∧
  ∀ (p : Placement) (trim : Nat) (e : DriveEntry), e.duty ≤ 16 →
    let raw := (e.level * trim + 2048) / 4096
    (e.duty = 0 → pixelDrive p trim e = ⟨0, 0, 0, false⟩) ∧
    (e.duty ≠ 0 →
      (pixelDrive p trim e).level = (if 4095 < raw then 4095 else raw) ∧
      ((pixelDrive p trim e).clamped = true ↔ 4095 < raw) ∧
      (pixelDrive p trim e).duty = e.duty ∧
      (pixelDrive p trim e).start = (match p with
        | .leading => 0
        | .centered => (16 - e.duty) / 2
        | .trailing => 16 - e.duty) ∧
      (pixelDrive p trim e).start + (pixelDrive p trim e).duty ≤ 16)

/-- R61: Set Drive Options; R132: Set Transport Timing. Both ask for a STOPPED run and values in range. -/
def Obligations.StoppedRunOptionsAreSet : Prop :=
  ∀ (rt : Byte) (m : Message) (s : State),
    (∀ b : Byte, s.Handed (.setDriveOptions rt b) m →
      let checks : List Check := [(decide (s.run.state ≠ .stopped), .busy, 0), (decide (2 < b.toNat), .badValue, 1)]
      FirstRefusal (.setDriveOptions rt b) m s checks ∧
      (passes checks → Accepted (.setDriveOptions rt b) m s
        { s with placement := if b.toNat = 0 then .leading else if b.toNat = 1 then .centered else .trailing } [])) ∧
    (∀ (timeout : Half) (settle : Byte), s.Handed (.setTransportTiming rt timeout settle) m →
      let checks : List Check :=
        [ (decide (s.run.state ≠ .stopped), .busy, 0),
          (decide (¬ (10 ≤ timeout.toNat ∧ timeout.toNat ≤ 2000)), .badValue, 1),
          (decide (¬ (1 ≤ settle.toNat ∧ settle.toNat ≤ 250)), .badValue, 2) ]
      FirstRefusal (.setTransportTiming rt timeout settle) m s checks ∧
      (passes checks → Accepted (.setTransportTiming rt timeout settle) m s
        { s with transport := { s.transport with timeout := timeout.toNat, settle := settle.toNat } } []))

/-! ## Job Store (01) -/

/-- R7, R8: Queue Job is refused by the first of its checks that fails, with the code and detail of the
tables, and then changes nothing. -/
def Obligations.QueueJobChecksInOrder : Prop :=
  ∀ (rt : Byte) (p : QueueJobItems) (m : Message) (s : State), s.Handed (.queueJob rt p) m →
    FirstRefusal (.queueJob rt p) m s (queueRows p s)

/-- R4, R5, R9, R10, R11: an accepted EXPOSE job joins the tail with its record set up; each distinct plane and the
curve set are used once more; the reply carries the counts after the acceptance (log 25). Where the run waits in BETWEEN
for a head job, the new head goes on to its first frame (R89 to R93). (That a refused pull-down halts the run after the
trim update and the first claim is log 17; the line counter and the marks in PREPARING are log 38.) -/
def Obligations.QueueJobAcceptsExpose : Prop :=
  ∀ (rt : Byte) (p : QueueJobItems) (m : Message) (s : State) (r g b : Selector), s.Handed (.queueJob rt p) m →
    passes (queueRows p s) → p.kind.toNat = 0 → r.inTable → g.inTable → b.inTable →
    r.wire = p.selectors.red.toNat → g.wire = p.selectors.green.toNat → b.wire = p.selectors.blue.toNat →
    ∃ u : State,
      let job : Job :=
        { tag := p.tag.toNat
          work := .expose ⟨r, g, b⟩ p.curveSet.toNat (decide (p.release.toNat ≠ 0))
          repeatCount := if p.repeatCount.toNat = 0 then 256 else p.repeatCount.toNat
          framesDone := 0, spoiled := 0, suspect := 0, saturated := 0, positions := none, outcome := none }
      let counts := u8 (s.jobs.live.length + 1) ++ u8 s.jobs.results.length
      u = { s with
        jobs := ⟨s.jobs.live ++ [job], s.jobs.results⟩
        planes := u.planes
        curves := u.curves
        link := { s.link with current := some ⟨m, .replyPending (.accept counts)⟩ } } ∧
      (∀ k, Table.get u.planes k = (Table.get s.planes k).map fun d =>
        if k = r.wire ∨ k = g.wire ∨ k = b.wire then { d with use := d.use + 1 } else d) ∧
      (∀ k, Table.get u.curves k = (Table.get s.curves k).map fun c =>
        if k = p.curveSet.toNat then { c with use := c.use + 1 } else c) ∧
      (¬ (s.run.state = .running ∧ s.seq.phase = .between ∧ s.jobs.live = []) →
        exec (.queueJob rt p) s = .next u) ∧
      (s.run.state = .running ∧ s.seq.phase = .between ∧ s.jobs.live = [] →
        ∃ t, exec (.queueJob rt p) s = .next t ∧ GoesOn u t)

/-- R4, R5, R9, R11: an accepted FLASH or BLANK job joins the tail; FLASH uses its curve set once more, BLANK
uses nothing. Where the run waits in BETWEEN for a head job, the new head goes on to its first frame (R89 to R93, R98).
(The counts in the reply are log 25; that a refused pull-down halts the run after the trim update and the first claim is
log 17; the sequencer's items after a BLANK frame passed, and the line counter and the marks in PREPARING, are log 38.) -/
def Obligations.QueueJobAcceptsFlashAndBlank : Prop :=
  ∀ (rt : Byte) (p : QueueJobItems) (m : Message) (s : State), s.Handed (.queueJob rt p) m →
    passes (queueRows p s) → p.kind.toNat = 1 ∨ p.kind.toNat = 2 →
    ∃ u : State,
      let job : Job :=
        { tag := p.tag.toNat
          work := if p.kind.toNat = 1 then .flash p.curveSet.toNat (p.flash.map BitVec.toNat) else .blank
          repeatCount := if p.repeatCount.toNat = 0 then 256 else p.repeatCount.toNat
          framesDone := 0, spoiled := 0, suspect := 0, saturated := 0, positions := none, outcome := none }
      let counts := u8 (s.jobs.live.length + 1) ++ u8 s.jobs.results.length
      u = { s with
        jobs := ⟨s.jobs.live ++ [job], s.jobs.results⟩
        curves := u.curves
        link := { s.link with current := some ⟨m, .replyPending (.accept counts)⟩ } } ∧
      (∀ k, Table.get u.curves k = (Table.get s.curves k).map fun c =>
        if p.kind.toNat = 1 ∧ k = p.curveSet.toNat then { c with use := c.use + 1 } else c) ∧
      (¬ (s.run.state = .running ∧ s.seq.phase = .between ∧ s.jobs.live = []) →
        exec (.queueJob rt p) s = .next u) ∧
      (s.run.state = .running ∧ s.seq.phase = .between ∧ s.jobs.live = [] →
        ∃ t, exec (.queueJob rt p) s = .next t ∧ GoesOn u t)

/-- R13, R16: Cancel Job: a LIVE job that is not the head of a RUNNING or PAUSING run ends CANCELLED: it leaves the
queue, its use counts are released, and it joins the tail of the result list. R15: Query Job reports slot state, place and
record of the job a tag names, and changes nothing else. R5, R191: the record's 30 bytes, by offset. -/
def Obligations.CancelAndQueryJob : Prop :=
  (∀ (rt : Byte) (tag : Half) (m : Message) (s : State), s.Handed (.cancelJob rt tag) m → UsesCounted s →
     ((∀ j ∈ s.jobs.live, j.tag ≠ tag.toNat) → Refused (.cancelJob rt tag) m s .noSuchJob 0) ∧
     (∀ before j after, s.jobs.live = before ++ j :: after → j.tag = tag.toNat →
       (∀ k ∈ before, k.tag ≠ tag.toNat) →
       (before = [] → s.run.state = .running ∨ s.run.state = .pausing →
         Refused (.cancelJob rt tag) m s .busy 0) ∧
       (before ≠ [] ∨ s.run.state = .stopped ∨ s.run.state = .paused →
         ∃ planes curves,
           Accepted (.cancelJob rt tag) m s
             { s with planes := planes, curves := curves,
                      jobs := ⟨before ++ after, s.jobs.results ++ [{ j with outcome := some .cancelled }]⟩ }
             (u8 (before.length + after.length) ++ u8 (s.jobs.results.length + 1)) ∧
           (∀ k, Table.get planes k = (Table.get s.planes k).map fun d =>
             if (j.work.planes.map Selector.wire).contains k then { d with use := d.use - 1 } else d) ∧
           (∀ k, Table.get curves k = (Table.get s.curves k).map fun c =>
             if j.work.curve = some k then { c with use := c.use - 1 } else c)))) ∧
  (∀ (rt : Byte) (tag : Half) (m : Message) (s : State), s.Handed (.queryJob rt tag) m →
     (∀ before j after, s.jobs.live = before ++ j :: after → j.tag = tag.toNat →
       (∀ k ∈ before, k.tag ≠ tag.toNat) →
       Accepted (.queryJob rt tag) m s s (u8 0 ++ u8 before.length ++ j.record)) ∧
     (∀ before j after, (∀ k ∈ s.jobs.live, k.tag ≠ tag.toNat) → s.jobs.results = before ++ j :: after →
       j.tag = tag.toNat → (∀ k ∈ before, k.tag ≠ tag.toNat) →
       Accepted (.queryJob rt tag) m s s (u8 1 ++ u8 before.length ++ j.record)) ∧
     ((∀ k ∈ s.jobs.live ++ s.jobs.results, k.tag ≠ tag.toNat) → Refused (.queryJob rt tag) m s .noSuchJob 0)) ∧
  (∀ j : Job, JobLaidOut j j.record)

/-! ## Runs (04) -/

/-- R67, R68, R69: Start Run is refused by the first of its checks that fails. R70, R89 to R93: accepted, it sets the
run's items, leaves the halt record, and the sequencer goes on to the head job's frame. (That a refused pull-down halts
the run after the trim update and the first claim is log 17; the sequencer's items while the run waits, and the line
counter and the marks in PREPARING, are log 38.) -/
def Obligations.StartRunBeginsRun : Prop :=
  (∀ (rt mode : Byte) (leadIn : Half) (m : Message) (s : State), s.Handed (.startRun rt mode leadIn) m →
     FirstRefusal (.startRun rt mode leadIn) m s
       ([ (decide (s.run.state ≠ .stopped), .busy, 0),
         (decide (1 < mode.toNat), .badValue, 1),
         (!leadInOk leadIn, .badValue, 2) ] ++ readyRows (if mode.toNat = 0 then .endOnEmpty else .holdOnEmpty) s)) ∧
  (∀ (rt mode : Byte) (leadIn : Half) (m : Message) (s : State), s.Handed (.startRun rt mode leadIn) m →
     s.run.state = .stopped → mode.toNat ≤ 1 → leadInOk leadIn = true →
     passes (readyRows (if mode.toNat = 0 then .endOnEmpty else .holdOnEmpty) s) →
     ∃ t, exec (.startRun rt mode leadIn) s = .next t ∧
       GoesOn { s with
         run := { s.run with
           state := .running
           mode := if mode.toNat = 0 then .endOnEmpty else .holdOnEmpty
           pendingStop := .none
           leadIn := leadInTime leadIn }
         link := { s.link with current := some ⟨m, .replyPending (.accept [])⟩ } } t)

/-- R75 to R78: an accepted Stop Run raises the pending stop to the stronger of the two and acts on it: the run
halts, a frame in EXPOSING is spoiled under NOW, or the stop is left pending. The reply carries run state and
pending stop as they stand after it. -/
def Obligations.StopRunActsOnPhase : Prop :=
  ∀ (rt mode : Byte) (m : Message) (s : State), s.Handed (.stopRun rt mode) m →
    FirstRefusal (.stopRun rt mode) m s
      [ (decide (s.run.state = .stopped), .busy, 0),
        (decide (¬ (1 ≤ mode.toNat ∧ mode.toNat ≤ 3)), .badValue, 1) ] ∧
    (∀ stop : StopMode, s.run.state ≠ .stopped → 1 ≤ mode.toNat → mode.toNat ≤ 3 →
      stop.code = max s.run.pendingStop.code mode.toNat →
      ∃ t, exec (.stopRun rt mode) s = .next (t.answered m (.accept (u8 t.run.state.code ++ u8 t.run.pendingStop.code))) ∧
        let kept : State := { s with run := { s.run with pendingStop := stop } }
        (s.run.state = .paused → Halted .stopRequest s t ∧ HaltFrame s t ∧ t.jobs = s.jobs ∧ t.log = s.log) ∧
        (s.run.state ≠ .paused → s.seq.phase = .exposing → stop = .now →
          Spoiled .stopNow .stopRequest s.seq.lineCounter none s t ∧ HaltFrame s t) ∧
        (s.run.state ≠ .paused → s.seq.phase = .exposing → stop ≠ .now → t = kept) ∧
        (s.run.state ≠ .paused → s.seq.phase ≠ .exposing →
          (stop ≠ .atJob ∨ (s.seq.phase = .between ∧ s.jobs.live = []) →
            Halted .stopRequest s t ∧ HaltFrame s t ∧ t.jobs = s.jobs ∧ t.log = s.log) ∧
          (stop = .atJob → ¬ (s.seq.phase = .between ∧ s.jobs.live = []) → t = kept)))

/-- R80, R82, R84: Pause Run: a frame in EXPOSING continues; a frame in PREPARING is abandoned, or a waiting run
rests, and the run is PAUSED at once. R83: Resume Run, examined against the run state: PAUSING returns to RUNNING;
PAUSED makes the readiness checks and goes on with the head job's frame. A pause raises no notice. (That a run resumed into an
empty queue with a stop pending halts with STOP_REQUEST is the model's reading of R78, log 18; that a refused pull-down
halts the run after the trim update and the first claim is log 17; the sequencer's items at rest and in waiting, and the
line counter and the marks in PREPARING, are log 38.) -/
def Obligations.PauseAndResumeRun : Prop :=
  (∀ (rt : Byte) (m : Message) (s : State), s.Handed (.pauseRun rt) m →
     (s.run.state ≠ .running → Refused (.pauseRun rt) m s .busy 0) ∧
     (s.run.state = .running → s.seq.phase = .exposing →
       Accepted (.pauseRun rt) m s { s with run := { s.run with state := .pausing } } (u8 2)) ∧
     (s.run.state = .running → s.seq.phase ≠ .exposing → ∃ t,
       Accepted (.pauseRun rt) m s t (u8 3) ∧ HaltFrame s t ∧ t.jobs = s.jobs ∧ t.log = s.log ∧
       t.run = { s.run with state := .paused } ∧
       t.seq = ⟨.between, 0, none, [], 0, false, none, none⟩ ∧ t.drive = none ∧ t.link = s.link)) ∧
  (∀ (rt : Byte) (leadIn : Half) (m : Message) (s : State), s.Handed (.resumeRun rt leadIn) m →
     let resumed : State := { s with
       run := { s.run with state := .running, leadIn := leadInTime leadIn }
       link := { s.link with current := some ⟨m, .replyPending (.accept [])⟩ } }
     (s.run.state = .stopped ∨ s.run.state = .running → Refused (.resumeRun rt leadIn) m s .busy 0) ∧
     (s.run.state = .pausing →
       (leadInOk leadIn = false → Refused (.resumeRun rt leadIn) m s .badValue 2) ∧
       (leadInOk leadIn = true → exec (.resumeRun rt leadIn) s = .next resumed)) ∧
     (s.run.state = .paused →
       FirstRefusal (.resumeRun rt leadIn) m s ((!leadInOk leadIn, .badValue, 2) :: readyRows s.run.mode s) ∧
       (leadInOk leadIn = true → passes (readyRows s.run.mode s) →
         ∃ t, exec (.resumeRun rt leadIn) s = .next t ∧ GoesOn resumed t)))

/-! ## The frame cycle (05) -/

/-- R95, R96: the expiry of the lead-in timer in PREPARING halts the run where the transport condition or the
lines condition fails, the transport first, and only stops the timer where both hold. (That the timer has then stopped
is log 34; that an expiry outside PREPARING or with no timer running changes nothing is the model's choice, log 3.) -/
def Obligations.LeadInExpiryHaltsLateFrame : Prop :=
  ∀ s : State, s.resetPin = false →
    let late : Prop := ∃ j rest planes curve release, s.jobs.live = j :: rest ∧
      j.work = .expose planes curve release ∧ s.seq.queue.length < min 8 ((s.reel.map Reel.lines).getD 0)
    let fresh : Prop := s.transport.state = .registered ∧ s.transport.gate = .fresh
    (s.seq.phase ≠ .preparing ∨ s.seq.leadTimer = none → exec .leadInTimerExpiry s = .next s) ∧
    (s.seq.phase = .preparing → s.seq.leadTimer ≠ none →
      (¬ fresh → ∃ t, exec .leadInTimerExpiry s = .next t ∧ Halted .transportFault s t ∧ HaltFrame s t ∧
        t.jobs = s.jobs ∧ t.log = s.log) ∧
      (fresh → late → ∃ t, exec .leadInTimerExpiry s = .next t ∧ Halted .dataLate s t ∧ HaltFrame s t ∧
        t.jobs = s.jobs ∧ t.log = s.log) ∧
      (fresh → ¬ late → exec .leadInTimerExpiry s = .next { s with seq := { s.seq with leadTimer := none } }))

/-- R81, R104, R105, R164: the clean end of a frame with no suspect mark: the frame is counted, the means are
made, a job that reaches its repeat count ends COMPLETE, and the frame end then stops the run, brings it to rest, or goes
on, with the Job Store and the means so left. (The gate is USED in EXPOSING, R99, so that no BLANK frame is passed here.
That a stop pending with no head job comes before QUEUE_EMPTY is log 18; that a refused pull-down halts the run after the
trim update is log 17; the prefetch cursor, the line counter and the marks at rest, in waiting and in PREPARING are the
model's choice, log 38.) -/
def Obligations.CleanEndCountsFrame : Prop :=
  ∀ (s : State) (j : Job) (rest : List Job), s.resetPin = false → s.seq.phase = .exposing →
    s.jobs.live = j :: rest → s.seq.lineCounter + 1 = (s.reel.map Reel.lines).getD 0 → s.seq.suspect = none →
    let counted : Job := { j with
      framesDone := j.framesDone + 1
      saturated := if s.seq.saturation then j.saturated + 1 else j.saturated }
    let done : Prop := j.framesDone + 1 = j.repeatCount
    ∃ u t, exec .frameCleanEnd s = .next t ∧
      u = { s with jobs := u.jobs, planes := u.planes, curves := u.curves, monitor := u.monitor, drive := none,
                   seq := { s.seq with phase := .between } } ∧
      (done → u.jobs = ⟨rest, s.jobs.results ++ [{ counted with outcome := some .complete }]⟩) ∧
      (¬ done → u.jobs = ⟨counted :: rest, s.jobs.results⟩ ∧ u.planes = s.planes ∧ u.curves = s.curves) ∧
      u.monitor.targets = s.monitor.targets ∧
      (∀ ch, let c := s.monitor.channels.get ch
        let c' := u.monitor.channels.get ch
        c' = { c with
          expecting := false, applied := false, valid := decide (c.count = s.seq.lineCounter + 1), mean := c'.mean } ∧
        (c.count = s.seq.lineCounter + 1 → c'.mean = c.sum / c.count)) ∧
      FrameEnded done u t

/-- R10, R16, R17, R35: the end of a job at a clean end, of a suspect frame too. EXPOSE: each distinct plane and the curve
set it named are used once less; with the release flag set, its REEL descriptors that no other LIVE job names become
UNDEFINED, and no other descriptor does. FLASH: the curve set it named is used once less, and no descriptor changes. -/
def Obligations.CompletedJobReleasesPlanes : Prop :=
  ∀ (s : State) (j : Job) (rest : List Job), s.resetPin = false → s.seq.phase = .exposing →
    s.jobs.live = j :: rest → j.framesDone + 1 = j.repeatCount →
    s.seq.lineCounter + 1 = (s.reel.map Reel.lines).getD 0 → UsesCounted s →
    ∃ t, exec .frameCleanEnd s = .next t ∧
      (∀ planes curve release, j.work = .expose planes curve release →
        (∀ k d, Table.get s.planes k = some d →
          let named : Prop := k = planes.red.wire ∨ k = planes.green.wire ∨ k = planes.blue.wire
          (¬ named → Table.get t.planes k = some d) ∧
          (named → release = true → 0x8000 ≤ k → d.use = 1 → Table.get t.planes k = none) ∧
          (named → (release = false ∨ k < 0x8000 ∨ d.use ≠ 1) →
            Table.get t.planes k = some { d with use := d.use - 1 })) ∧
        (∀ k, Table.get t.curves k = (Table.get s.curves k).map fun c =>
          if k = curve then { c with use := c.use - 1 } else c)) ∧
      (∀ curve values, j.work = .flash curve values → t.planes = s.planes ∧
        ∀ k, Table.get t.curves k = (Table.get s.curves k).map fun c =>
          if k = curve then { c with use := c.use - 1 } else c)

/-- R108, R110, R104, R16: the clean end of a suspect frame: the frame counts as done, its job's suspect count rises,
one SUSPECT entry is logged, no mean is valid, a job that reaches its repeat count ends COMPLETE
(CompletedJobReleasesPlanes says what it releases), and the run halts with MONITOR_LOST, with the Job Store, the log and
the means so left. -/
def Obligations.SuspectEndHaltsRun : Prop :=
  ∀ (s : State) (j : Job) (rest : List Job) (ch : Channel), s.resetPin = false → s.seq.phase = .exposing →
    s.jobs.live = j :: rest → s.seq.lineCounter + 1 = (s.reel.map Reel.lines).getD 0 → s.seq.suspect = some ch →
    let counted : Job := { j with
      framesDone := j.framesDone + 1
      saturated := if s.seq.saturation then j.saturated + 1 else j.saturated
      suspect := min (j.suspect + 1) 64 }
    let done : Prop := j.framesDone + 1 = j.repeatCount
    ∃ u t, exec .frameCleanEnd s = .next t ∧
      u = { s with jobs := u.jobs, planes := u.planes, curves := u.curves, monitor := u.monitor, log := u.log,
                   drive := none, seq := { s.seq with phase := .between } } ∧
      (done → u.jobs = ⟨rest, s.jobs.results ++ [{ counted with outcome := some .complete }]⟩) ∧
      (¬ done → u.jobs = ⟨counted :: rest, s.jobs.results⟩ ∧ u.planes = s.planes ∧ u.curves = s.curves) ∧
      u.monitor.targets = s.monitor.targets ∧
      (∀ c, u.monitor.channels.get c = { s.monitor.channels.get c with expecting := false, valid := false }) ∧
      u.log = ⟨s.log.entries ++ [⟨.suspect, s.transport.position, j.tag, .monitorLost, none, some ch⟩],
        s.log.unsent + 1⟩ ∧
      Halted .monitorLost u t ∧ HaltFrame u t ∧ t.jobs = u.jobs ∧ t.log = u.log

/-- R98, R105: a BLANK frame in PREPARING is passed by the registration that gives it fresh film: frames done rises,
the positions are written, the gate is USED, at the repeat count the job ends COMPLETE, and the run meets its frame end:
it halts where AT_JOB is due (or a stop or pause that no run brings here, R77, R80), and else goes on. (That a refused
pull-down halts the run after the trim update and the first claim is log 17; the sequencer's items at rest, in waiting
and in PREPARING, where R88 and R90 leave them open, are log 38.) -/
def Obligations.BlankFrameIsPassed : Prop :=
  ∀ (s : State) (j : Job) (rest : List Job), s.resetPin = false → s.seq.phase = .preparing →
    s.jobs.live = j :: rest → j.work = .blank → s.transport.state = .settling →
    s.transport.settleEnds = some .pullDown → s.transport.series = none → s.pins.levels.gateClosed = true →
    ∃ t, exec .settleTimerExpiry s = .next t ∧
      FrameEnded (j.framesDone + 1 = j.repeatCount)
        { s with
          jobs := blankCounted j rest s.jobs.results (s.transport.position + 1)
          seq := { s.seq with leadTimer := none, phase := .between }
          transport := { s.transport with
            state := .registered, settleTimer := none, settleEnds := none
            position := s.transport.position + 1, gate := .used } } t ∧
      t.jobs = blankCounted j rest s.jobs.results (s.transport.position + 1) ∧
      t.transport.position = s.transport.position + 1 ∧ t.transport.gate = .used ∧
      t.planes = s.planes ∧ t.curves = s.curves ∧ t.store = s.store ∧ t.lasers = s.lasers ∧ t.log = s.log ∧
      t.scan = s.scan ∧ t.pins = s.pins ∧ t.reel = s.reel

/-- R59, R94, R99, R100, R101, R103: a facet sync in PREPARING begins exposure where every start condition holds: the gate is
USED, the job's positions are written, sums and marks are cleared, and line 0 is driven, with no mark before it; else it has no effect on the
frame. R146: the sync is passed on, and the line driven in full, after a good period and after a miss below the limit. R93,
R41: with the set taken, the prefetcher's conditions are examined. (That the saturation mark holds the clamps of the
whole line already at its facet sync is the model's choice, log 19.) -/
def Obligations.FacetSyncBeginsExposure : Prop :=
  ∀ (elapsed period : Nat) (s : State) (j : Job) (rest : List Job) (reel : Reel), SyncPassed elapsed period s →
    s.seq.phase = .preparing → s.jobs.live = j :: rest → s.reel = some reel → 1 ≤ reel.lines →
    let start : Prop := j.work ≠ .blank ∧
      (∀ p c r, j.work = .expose p c r → min 8 reel.lines ≤ s.seq.queue.length) ∧
      s.transport.state = .registered ∧ s.transport.gate = .fresh ∧ s.lasers = ⟨.ready, .ready, .ready⟩ ∧
      s.pins.levels.interlock = true ∧ ∀ ch, (s.monitor.channels.get ch).lost = false
    let first := (j.positions.map Positions.first).getD s.transport.position
    let begun : Job := { j with positions := some ⟨first, s.transport.position⟩ }
    (¬ start → exec (.sosPulse elapsed) s = .next (synced elapsed period s)) ∧
    (start → ∃ t d, exec (.sosPulse elapsed) s = .next t ∧
      t.drive = some d ∧ LineDriven 0 s.scan.facetCount j.work reel s d ∧ d.markBefore = false ∧
      t.seq.phase = .exposing ∧ t.seq.lineCounter = 0 ∧ t.seq.leadTimer = none ∧ t.seq.suspect = none ∧
      t.seq.cursor = s.seq.cursor ∧ t.seq.saturation = d.pixels.any (PixelRow.clampedIn reel.width) ∧
      (∀ p c r, j.work = .expose p c r → t.seq.queue = s.seq.queue.tail ∧
        Prefetched { s with
          jobs := t.jobs, seq := { s.seq with phase := .exposing, queue := s.seq.queue.tail } } t) ∧
      (∀ curve values, j.work = .flash curve values → t.arbiter = s.arbiter ∧ t.seq.assembly = s.seq.assembly ∧
        t.seq.queue = s.seq.queue) ∧
      t.transport = { s.transport with gate := .used } ∧
      t.jobs = ⟨begun :: rest, s.jobs.results⟩ ∧
      (∀ ch, t.monitor.channels.get ch = { s.monitor.channels.get ch with
        sum := 0, count := 0, breaches := 0, expecting := decide (d.delay ≠ 0) }) ∧
      t.monitor.targets = s.monitor.targets ∧ t.reel = s.reel ∧ t.placement = s.placement ∧ t.freeEpoch = s.freeEpoch ∧
      t.run = s.run ∧ t.scan = (synced elapsed period s).scan ∧ t.planes = s.planes ∧ t.curves = s.curves ∧
      t.store = s.store ∧ t.log = s.log ∧ t.lasers = s.lasers ∧ t.pins = s.pins ∧ t.link = s.link)

/-- R59, R100, R101, R103: a facet sync in EXPOSING before the last line raises the line counter and drives the next
line; with no line set in the queue an EXPOSE frame is spoiled UNDERRUN at that line. The saturation mark keeps the clamps
of the pixels the line before had begun, and is carried to the next line (log 19). R104: a facet sync that finds the last line under way cuts it short and
is the clean end of the frame: it acts as FRAME_CLEAN_END does, with the mark so kept. R146: the sync is passed on after
a good period and after a miss below the limit. R93, R41: with the set taken, the prefetcher's conditions are examined. -/
def Obligations.FacetSyncDrivesNextLine : Prop :=
  (∀ (elapsed period : Nat) (s : State) (reel : Reel) (old : LineDrive), SyncPassed elapsed period s →
    s.seq.phase = .exposing → s.reel = some reel → s.drive = some old →
    let begun := min reel.width (((elapsed - old.delay) * 1000 + (s.scan.geometry.pixelPeriod - 1)) /
      s.scan.geometry.pixelPeriod)
    let marked : Bool := old.markBefore || old.pixels.any (PixelRow.clampedIn begun)
    (∀ (j : Job) (rest : List Job), s.jobs.live = j :: rest → j.work ≠ .blank → s.seq.lineCounter + 1 < reel.lines →
      (s.seq.queue = [] → (∃ p c r, j.work = .expose p c r) →
        ∃ t, exec (.sosPulse elapsed) s = .next t ∧ t.scan = (synced elapsed period s).scan ∧
          Spoiled .underrun .underrun (s.seq.lineCounter + 1) none s t ∧ HaltFrame (synced elapsed period s) t) ∧
      ((∀ p c r, j.work = .expose p c r → s.seq.queue ≠ []) → ∃ t d, exec (.sosPulse elapsed) s = .next t ∧
        t.drive = some d ∧ LineDriven (s.seq.lineCounter + 1) s.scan.facetCount j.work reel s d ∧
        d.markBefore = marked ∧ t.seq.cursor = s.seq.cursor ∧ t.seq.leadTimer = s.seq.leadTimer ∧
        t.seq.phase = .exposing ∧ t.seq.lineCounter = s.seq.lineCounter + 1 ∧ t.seq.suspect = s.seq.suspect ∧
        t.seq.saturation = (marked || d.pixels.any (PixelRow.clampedIn reel.width)) ∧
        (∀ p c r, j.work = .expose p c r → t.seq.queue = s.seq.queue.tail ∧
          Prefetched { s with seq := { s.seq with queue := s.seq.queue.tail } } t) ∧
        (∀ curve values, j.work = .flash curve values → t.arbiter = s.arbiter ∧ t.seq.assembly = s.seq.assembly ∧
          t.seq.queue = s.seq.queue) ∧
        (∀ ch, t.monitor.channels.get ch = { s.monitor.channels.get ch with
          expecting := decide (d.delay ≠ 0) && !(s.monitor.channels.get ch).lost }) ∧
        t.monitor.targets = s.monitor.targets ∧ t.reel = s.reel ∧ t.placement = s.placement ∧
        t.freeEpoch = s.freeEpoch ∧
        t.run = s.run ∧ t.scan = (synced elapsed period s).scan ∧ t.jobs = s.jobs ∧ t.transport = s.transport ∧
        t.planes = s.planes ∧ t.curves = s.curves ∧ t.store = s.store ∧ t.log = s.log ∧ t.lasers = s.lasers ∧
        t.pins = s.pins ∧ t.link = s.link)) ∧
    (s.seq.lineCounter + 1 = reel.lines →
      exec (.sosPulse elapsed) s =
        exec .frameCleanEnd { synced elapsed period s with seq := { s.seq with saturation := marked } })) ∧
  (∀ (elapsed period : Nat) (s : State) (reel : Reel), SyncPassed elapsed period s → s.seq.phase = .exposing →
    s.reel = some reel → s.drive = none → s.seq.lineCounter + 1 = reel.lines →
    exec (.sosPulse elapsed) s = exec .frameCleanEnd (synced elapsed period s))

/-! ## Film transport and the reel (06) -/

/-- R116, R117, R44: Open Reel: the reel context and the frame position are set, and the reel table has every
descriptor UNDEFINED. R19, R118: Close Reel: every LIVE job ends FLUSHED, head first, so that no descriptor or set is in
use; the reel table ceases to exist and the reel is closed. -/
def Obligations.ReelIsOpenedAndClosed : Prop :=
  (∀ (rt : Byte) (p : OpenReelItems) (m : Message) (s : State), s.Handed (.openReel rt p) m →
     let checks : List Check :=
       [ (decide (s.run.state ≠ .stopped), .busy, 0),
         (decide (s.transport.state = .advancing ∨ s.transport.state = .settling), .busy, 1),
         (s.reel.isSome, .reelOpen, 0),
         (decide (p.capacity.toNat = 0), .badValue, 1),
         (decide (¬ p.start.toNat < p.capacity.toNat), .badValue, 2),
         (decide (¬ (2 ≤ p.perforations.toNat ∧ p.perforations.toNat ≤ 8)), .badValue, 3),
         (decide (¬ (1 ≤ p.lines.toNat ∧ p.lines.toNat ≤ 4096)), .badValue, 4),
         (decide (¬ (256 ≤ p.width.toNat ∧ p.width.toNat ≤ 4096 ∧ p.width.toNat % 256 = 0)), .badValue, 5),
         (decide (20000 < p.offset.toNat), .badValue, 6) ]
     let reel : Reel :=
       { capacity := p.capacity.toNat
         perforations := p.perforations.toNat
         lines := p.lines.toNat
         width := p.width.toNat
         offset := p.offset.toNat }
     FirstRefusal (.openReel rt p) m s checks ∧
     (passes checks → ∃ planes,
       Accepted (.openReel rt p) m s
         { s with
           reel := some reel
           transport := { s.transport with position := p.start.toNat }
           planes := planes } [] ∧
       ∀ k, Table.get planes k = if k < 0x8000 then Table.get s.planes k else none)) ∧
  (∀ (rt : Byte) (m : Message) (s : State), s.Handed (.closeReel rt) m → UsesCounted s →
     let checks : List Check :=
       [ (decide (s.run.state ≠ .stopped), .busy, 0),
         (decide (s.transport.state = .advancing ∨ s.transport.state = .settling), .busy, 1),
         (s.reel.isNone, .noReel, 0),
         (decide (s.log.entries ≠ []), .logNotEmpty, s.log.entries.length) ]
     FirstRefusal (.closeReel rt) m s checks ∧
     (passes checks → ∃ planes curves,
       Accepted (.closeReel rt) m s
         { s with
           reel := none
           jobs := ⟨[], s.jobs.results ++ s.jobs.live.map fun j => { j with outcome := some .flushed }⟩
           planes := planes
           curves := curves } (u8 s.jobs.live.length) ∧
       (∀ k, Table.get planes k =
         if k < 0x8000 then (Table.get s.planes k).map fun d => { d with use := 0 } else none) ∧
       ∀ k, Table.get curves k = (Table.get s.curves k).map fun c => { c with use := 0 }))

/-- R128, R119: Register Gate closes the gate on OPEN film and starts the settle. R133: Clear Transport leaves FAULT for
OPEN, or for EMPTY without film; the gate stays open and the claw off, as they are in FAULT. -/
def Obligations.RegisterGateAndClearTransport : Prop :=
  ∀ (rt : Byte) (m : Message) (s : State),
    (∀ gate : Byte, s.Handed (.registerGate rt gate) m →
      let checks : List Check :=
        [ (decide (1 < gate.toNat), .badValue, 1),
          (decide (s.transport.state ≠ .opened), .busy, 0),
          (decide (s.pins.levels.tensionOk = false), .transportFault, 2) ]
      FirstRefusal (.registerGate rt gate) m s checks ∧
      (passes checks → Accepted (.registerGate rt gate) m s
        { s with transport := { s.transport with
            state := .settling
            pullDownTimer := none
            settleTimer := some s.transport.settle
            settleEnds := some (.registerGate (if gate.toNat = 0 then .fresh else .used)) } } []) ∧
      (passes checks → s.transport.state.gateDrive = false ∧ ∃ t, exec (.registerGate rt gate) s = .next t ∧
        t.transport.state.gateDrive = true ∧ t.transport.state.pullDownDrive = false)) ∧
    (s.Handed (.clearTransport rt) m →
      ((∀ cause, s.transport.state ≠ .fault cause) → Refused (.clearTransport rt) m s .busy 0) ∧
      (∀ cause, s.transport.state = .fault cause →
        s.transport.state.gateDrive = false ∧ s.transport.state.pullDownDrive = false ∧
        (∃ t, exec (.clearTransport rt) s = .next t ∧
          t.transport.state.gateDrive = false ∧ t.transport.state.pullDownDrive = false) ∧
        (s.pins.levels.filmPresent = true → Accepted (.clearTransport rt) m s
          { s with transport := { s.transport with state := .opened } } (u8 1)) ∧
        (s.pins.levels.filmPresent = false → Accepted (.clearTransport rt) m s
          { s with transport := { s.transport with state := .empty } } (u8 0))))

/-- R129, R130, R131, R123: Advance Frames requests its first pull-down at acceptance and the reply waits for the
series; as each pull-down registers the next is requested, the last one sends the ACCEPT reply, and an asserted
END_SENSOR ends the series with the pull-downs done. -/
def Obligations.AdvanceFramesMakesSeries : Prop :=
  (∀ (rt count : Byte) (m : Message) (s : State), s.Handed (.advanceFrames rt count) m →
     let n := if count.toNat = 0 then 256 else count.toNat
     let last := (s.reel.map fun r => r.capacity - 1).getD 0
     let checks : List Check :=
       [ (decide (s.run.state ≠ .stopped ∨ s.transport.state ≠ .registered), .busy, 0),
         (s.reel.isNone, .noReel, 0),
         (decide (last < s.transport.position + n), .endOfReel, last - s.transport.position) ]
     FirstRefusal (.advanceFrames rt count) m s checks ∧
     (passes checks →
       (s.pins.levels.endSensor = false → exec (.advanceFrames rt count) s = .next
         { s with
           link := { s.link with current := some ⟨m, .waiting⟩ }
           transport := { s.transport with
             state := .advancing
             perfs := 0
             pullDownTimer := some s.transport.timeout
             series := some ⟨n, 0⟩ } }) ∧
       (s.pins.levels.endSensor = true → exec (.advanceFrames rt count) s = .next
         { s with
           link := { s.link with current := some ⟨m, .replyPending (.refuse .endOfReel 0)⟩ }
           transport := { s.transport with series := none } }))) ∧
  (∀ (s : State) (x : Series) (reel : Reel), s.resetPin = false → s.run.state = .stopped → s.seq.phase = .between →
     s.transport.state = .settling → s.pins.levels.gateClosed = true → s.transport.settleEnds = some .pullDown →
     s.transport.series = some x → s.reel = some reel →
     let moved : Transport := { s.transport with
       settleTimer := none, settleEnds := none, position := s.transport.position + 1, gate := .fresh }
     let replied (r : Reply) (tr : Transport) : State := { s with
       transport := tr
       link := { s.link with current := s.link.current.map fun c => { c with stage := .replyPending r } } }
     (x.done + 1 = x.count → exec .settleTimerExpiry s = .next
       (replied (.accept (u8 x.count ++ u16 (s.transport.position + 1)))
         { moved with state := .registered, series := none })) ∧
     (x.done + 1 ≠ x.count → s.pins.levels.endSensor = true → exec .settleTimerExpiry s = .next
       (replied (.refuse .endOfReel (x.done + 1)) { moved with state := .registered, series := none })) ∧
     (x.done + 1 ≠ x.count → s.pins.levels.endSensor = false → s.transport.position + 1 ≠ reel.capacity - 1 →
       exec .settleTimerExpiry s = .next { s with transport := { moved with
         state := .advancing, perfs := 0, pullDownTimer := some s.transport.timeout
         series := some ⟨x.count, x.done + 1⟩ } }))

/-- R124: a PERF pulse in ADVANCING is counted and the P-th starts the settle; the pull-down timer's expiry in
ADVANCING is a fault PERF_TIMEOUT. R125, R126, R127: the settle timer's expiry with GATE_CLOSED asserted registers the
film: a pull-down raises the position and leaves the gate FRESH, a Register Gate sets the frame state it named;
deasserted it is a fault GATE. R119: the gate drive is asserted in SETTLING and REGISTERED and the pull-down drive in
ADVANCING, and neither in another state. (That the pull-down timer's expiry outside ADVANCING and the settle timer's outside
SETTLING change nothing is the model's choice, log 3.) -/
def Obligations.PullDownRegistersFilm : Prop :=
  (∀ x : TransportState, (x.gateDrive = true ↔ x = .settling ∨ x = .registered) ∧
    (x.pullDownDrive = true ↔ x = .advancing)) ∧
  (∀ (s : State), s.resetPin = false →
     (∀ reel, s.transport.state = .advancing → s.reel = some reel →
       (s.transport.perfs + 1 ≠ reel.perforations → exec .perfPulse s = .next
         { s with transport := { s.transport with perfs := s.transport.perfs + 1 } }) ∧
       (s.transport.perfs + 1 = reel.perforations → exec .perfPulse s = .next
         { s with transport := { s.transport with
             perfs := s.transport.perfs + 1
             state := .settling
             pullDownTimer := none
             settleTimer := some s.transport.settle
             settleEnds := some .pullDown } })) ∧
     (s.transport.state = .advancing →
       ∃ t, exec .pullDownTimerExpiry s = .next t ∧ TransportFaulted .perfTimeout s t) ∧
     (s.transport.state ≠ .advancing →
       exec .perfPulse s = .next s ∧ exec .pullDownTimerExpiry s = .next s)) ∧
  (∀ (s : State), s.resetPin = false →
     let noBlank : Prop := s.seq.phase ≠ .preparing ∨ ∀ j rest, s.jobs.live = j :: rest → j.work ≠ .blank
     (s.transport.state ≠ .settling → exec .settleTimerExpiry s = .next s) ∧
     (s.transport.state = .settling → s.pins.levels.gateClosed = false →
       ∃ t, exec .settleTimerExpiry s = .next t ∧ TransportFaulted .gate s t) ∧
     (∀ gate, s.transport.state = .settling → s.pins.levels.gateClosed = true → noBlank →
       s.transport.settleEnds = some (.registerGate gate) → exec .settleTimerExpiry s = .next
         { s with transport := { s.transport with
             state := .registered, settleTimer := none, settleEnds := none, gate := gate } }) ∧
     (s.transport.state = .settling → s.pins.levels.gateClosed = true → noBlank →
       s.transport.settleEnds = some .pullDown → s.transport.series = none → exec .settleTimerExpiry s = .next
         { s with transport := { s.transport with
             state := .registered, settleTimer := none, settleEnds := none
             position := s.transport.position + 1, gate := .fresh } }))

/-- R120, R121: a change of a film sensor sets its changed flag and raises LINES, and then moves the transport: film
comes, or its loss, the loss of tension, or the opening of the gate is a fault in the states the rule names, LINES being
raised there too. Every change completes: END_SENSOR moves no transport. (That a
change to the level a line already has changes nothing is the model's choice, log 3.) -/
def Obligations.FilmSensorsMoveTransport : Prop :=
  ∀ (s : State) (level : Bool), s.resetPin = false →
    let lines (l c : Lines) : State := State.raise .lines { s with pins := ⟨l, c⟩ }
    (level = s.pins.levels.filmPresent → exec (.filmPresentChange level) s = .next s) ∧
    (level ≠ s.pins.levels.filmPresent →
      let u := lines { s.pins.levels with filmPresent := level } { s.pins.changed with filmPresent := true }
      (level = true → s.transport.state = .empty → exec (.filmPresentChange level) s =
        .next { u with transport := { s.transport with state := .opened } }) ∧
      (level = true → s.transport.state ≠ .empty → exec (.filmPresentChange level) s = .next u) ∧
      (level = false → (∃ c, s.transport.state = .fault c) ∨ s.transport.state = .empty →
        exec (.filmPresentChange level) s = .next u) ∧
      (level = false → (∀ c, s.transport.state ≠ .fault c) → s.transport.state ≠ .empty →
        ∃ t, exec (.filmPresentChange level) s = .next t ∧ TransportFaulted .filmLost u t)) ∧
    (level = s.pins.levels.tensionOk → exec (.tensionOkChange level) s = .next s) ∧
    (level ≠ s.pins.levels.tensionOk →
      let u := lines { s.pins.levels with tensionOk := level } { s.pins.changed with tensionOk := true }
      let loaded : Prop := s.transport.state = .advancing ∨ s.transport.state = .settling ∨
        s.transport.state = .registered
      (level = true ∨ ¬ loaded → exec (.tensionOkChange level) s = .next u) ∧
      (level = false → loaded → ∃ t, exec (.tensionOkChange level) s = .next t ∧ TransportFaulted .tension u t)) ∧
    (level = s.pins.levels.gateClosed → exec (.gateClosedChange level) s = .next s) ∧
    (level ≠ s.pins.levels.gateClosed →
      let u := lines { s.pins.levels with gateClosed := level } { s.pins.changed with gateClosed := true }
      (level = true ∨ s.transport.state ≠ .registered → exec (.gateClosedChange level) s = .next u) ∧
      (level = false → s.transport.state = .registered →
        ∃ t, exec (.gateClosedChange level) s = .next t ∧ TransportFaulted .gate u t)) ∧
    (level = s.pins.levels.endSensor → exec (.endSensorChange level) s = .next s) ∧
    (level ≠ s.pins.levels.endSensor → exec (.endSensorChange level) s = .next
      (lines { s.pins.levels with endSensor := level } { s.pins.changed with endSensor := true }))

/-! ## Scan timing (07) -/

/-- R138, R140, R142: Set Scan Geometry, Load Facet Corrections and Calibrate Scan: their checks in order and what
each sets. -/
def Obligations.ScanRequestsSetUpScan : Prop :=
  ∀ (rt : Byte) (m : Message) (s : State),
    (∀ p : GeometryItems, s.Handed (.setScanGeometry rt p) m →
      let checks : List Check :=
        [ (decide (s.run.state ≠ .stopped), .busy, 0),
          (decide (s.scan.state = .calibrating), .busy, 1),
          (decide (¬ (4 ≤ p.facets.toNat ∧ p.facets.toNat ≤ 16)), .badValue, 1),
          (decide (¬ (10000 ≤ p.period.toNat ∧ p.period.toNat ≤ 200000)), .badValue, 2),
          (decide (¬ (2000 ≤ p.pixelPeriod.toNat ∧ p.pixelPeriod.toNat ≤ 40000)), .badValue, 3),
          (decide (¬ (50 ≤ p.tolerance.toNat ∧ p.tolerance.toNat ≤ 5000)), .badValue, 4),
          (decide (¬ (1 ≤ p.missLimit.toNat ∧ p.missLimit.toNat ≤ 8)), .badValue, 5),
          (decide (¬ (1 ≤ p.revolutions.toNat ∧ p.revolutions.toNat ≤ 64)), .badValue, 6) ]
      FirstRefusal (.setScanGeometry rt p) m s checks ∧
      (passes checks → Accepted (.setScanGeometry rt p) m s
        (State.raise .scan { s with scan := { s.scan with
          geometry := ⟨p.facets.toNat, p.period.toNat, p.pixelPeriod.toNat, p.tolerance.toNat, p.missLimit.toNat,
            p.revolutions.toNat⟩
          captured := none
          corrections :=
            if p.facets.toNat = s.scan.geometry.facets then s.scan.corrections
            else List.replicate p.facets.toNat 0
          state := .unlocked
          misses := 0
          noSignal := none } }) [])) ∧
    (∀ (count : Byte) (values : List Half), s.Handed (.loadFacetCorrections rt count values) m →
      let bad := values.findIdx? fun v => decide (v.toInt < -2000 ∨ 2000 < v.toInt)
      let checks : List Check :=
        [ (decide (s.run.state ≠ .stopped), .busy, 0),
          (decide (count.toNat ≠ s.scan.geometry.facets), .badValue, s.scan.geometry.facets),
          (bad.isSome, .badValue, 0x8000 + bad.getD 0) ]
      FirstRefusal (.loadFacetCorrections rt count values) m s checks ∧
      (passes checks → Accepted (.loadFacetCorrections rt count values) m s
        { s with scan := { s.scan with corrections := values.map BitVec.toInt } } [])) ∧
    (s.Handed (.calibrateScan rt) m →
      let checks : List Check :=
        [(decide (s.run.state ≠ .stopped), .busy, 0), (decide (s.scan.state = .calibrating), .busy, 1)]
      let g := s.scan.geometry
      let begun : Calibration :=
        { revolution := 0, sosSeen := false, sums := List.replicate g.facets 0, countFault := none, rangeFault := none,
          completed := 0, indexDeadline := 4 * g.facets * g.period, sosGap := 2 * g.period }
      FirstRefusal (.calibrateScan rt) m s checks ∧
      (passes checks → Accepted (.calibrateScan rt) m s
        (State.raise .scan { s with scan := { s.scan with
          state := .calibrating, captured := none, misses := 0, noSignal := none, calibration := some begun } }) []))

/-- R143, R144, R145: what SOS, INDEX and the two deadlines do in CALIBRATING: the capture is opened, periods are
summed and checked, revolutions are counted, and the closing INDEX or a deadline ends the calibration. R136: the first
SOS after hardware reset has no measured period; it comes before the opening INDEX, and is only seen. -/
def Obligations.CalibrationCapturesPeriods : Prop :=
  ∀ (s : State) (c : Calibration) (elapsed : Nat), s.resetPin = false → s.scan.state = .calibrating →
    s.scan.calibration = some c →
    let g := s.scan.geometry
    let m := elapsed / 10 * 10
    let at_ (x : Calibration) (count : Nat) (seen : Option Nat) : State := { s with scan := { s.scan with
      period := seen, facetCount := count, calibration := some x } }
    let ended (o : CalOutcome) : State := State.raise .scan { s with scan := { s.scan with
      state := .unlocked, captured := none, outcome := o, calibration := none } }
    (c.revolution = 0 → s.scan.sosSeen = false → exec (.sosPulse elapsed) s =
      .next { s with scan := { s.scan with
        sosSeen := true
        period := none
        calibration := some { c with sosSeen := true, sosGap := 2 * g.period } } }) ∧
    (c.revolution = 0 → s.scan.sosSeen = true → exec (.sosPulse elapsed) s =
      .next (at_ { c with sosSeen := true, sosGap := 2 * g.period } s.scan.facetCount (some m))) ∧
    (c.revolution ≠ 0 → s.scan.sosSeen = true → s.scan.facetCount < g.facets → s.scan.facetCount < 255 → exec (.sosPulse elapsed) s =
      .next (at_ { c with
          sosSeen := true
          sosGap := 2 * g.period
          sums := c.sums.modify s.scan.facetCount (· + m)
          rangeFault :=
            if c.rangeFault = none ∧ (m * 100 < g.period * 95 ∨ g.period * 105 < m * 100) then
              some ⟨c.revolution, s.scan.facetCount, m⟩
            else c.rangeFault }
        (s.scan.facetCount + 1) (some m))) ∧
    (c.revolution ≠ 0 → s.scan.sosSeen = true → g.facets ≤ s.scan.facetCount → exec (.sosPulse elapsed) s =
      .next (at_ { c with sosSeen := true, sosGap := 2 * g.period } (min (s.scan.facetCount + 1) 255) (some m))) ∧
    (c.revolution = 0 → c.sosSeen = false → exec .indexPulse s =
      .next (at_ { c with indexDeadline := 4 * g.facets * g.period } s.scan.facetCount s.scan.period)) ∧
    (c.revolution = 0 → c.sosSeen = true → exec .indexPulse s =
      .next (at_ { c with revolution := 1, indexDeadline := 4 * g.facets * g.period } 0 s.scan.period)) ∧
    (c.revolution ≠ 0 →
      let fault := if c.countFault = none ∧ s.scan.facetCount ≠ g.facets then some ⟨c.revolution, s.scan.facetCount⟩
        else c.countFault
      (c.revolution ≠ g.revolutions → exec .indexPulse s =
        .next (at_ { c with revolution := c.revolution + 1, completed := c.completed + 1, countFault := fault,
                            indexDeadline := 4 * g.facets * g.period } 0 s.scan.period)) ∧
      (c.revolution = g.revolutions →
        (∀ f, fault = some f →
          exec .indexPulse s = .next (ended (.facetCount (c.completed + 1) f.revolution f.pulses))) ∧
        (∀ f, fault = none → c.rangeFault = some f →
          exec .indexPulse s = .next (ended (.outOfRange (c.completed + 1) f.facet f.period))) ∧
        (fault = none → c.rangeFault = none → exec .indexPulse s =
          .next (State.raise .scan { s with scan := { s.scan with
            state := .locked
            captured := some (c.sums.map fun sum => sum / g.revolutions / 10 * 10)
            misses := 0
            facetCount := 0
            outcome := .locked (c.completed + 1)
            calibration := none
            noSignal := some (2 * g.period) } })))) ∧
    exec .calibrationIndexDeadline s = .next (ended (.noSignal c.completed .index)) ∧
    exec .sosGapWatchdogExpiry s = .next (ended (.noSignal c.completed .sos))

/-- R136, R146, R147, R148: lock supervision, and the pulses outside it. A good period clears the miss counter, a
miss below the limit only raises it, and both are passed on (in BETWEEN without effect; FacetSyncBeginsExposure and
FacetSyncDrivesNextLine say what a sync so passed does in PREPARING and EXPOSING); the limit, a wrong facet count or silence
loses the lock. In UNLOCKED and LOST an SOS is only measured. (That the no-signal watchdog and both calibration deadlines
change nothing there is the model's choice, log 3; that the facet count stands at F + 1 in LOST is log 35.) -/
def Obligations.LockIsSupervised : Prop :=
  ∀ (s : State) (elapsed : Nat), s.resetPin = false →
    let m := elapsed / 10 * 10
    let k := s.scan.facetCount
    let counted (misses : Nat) : State := { s with scan := { s.scan with
      sosSeen := true, period := some m, facetCount := k + 1, misses := misses } }
    (∀ period, SyncPassed elapsed period s → s.seq.phase = .between →
      exec (.sosPulse elapsed) s = .next (synced elapsed period s)) ∧
    (s.scan.state = .locked → s.scan.sosSeen = true → s.scan.geometry.facets ≤ k →
      ∃ t, exec (.sosPulse elapsed) s = .next t ∧ LockLost .facetCount (counted s.scan.misses) t) ∧
    (s.scan.state = .locked → s.scan.sosSeen = true → k < s.scan.geometry.facets →
      ∀ periods p, s.scan.captured = some periods → periods[k]? = some p →
      p * s.scan.geometry.tolerance < (max m p - min m p) * 1000000 →
      (s.scan.misses + 1 = s.scan.geometry.missLimit →
        ∃ t, exec (.sosPulse elapsed) s = .next t ∧ LockLost .period (counted (s.scan.misses + 1)) t) ∧
      (s.scan.misses + 1 ≠ s.scan.geometry.missLimit → s.seq.phase = .between →
        exec (.sosPulse elapsed) s = .next { counted (s.scan.misses + 1) with
          scan := { (counted (s.scan.misses + 1)).scan with noSignal := some (2 * s.scan.geometry.period) } })) ∧
    (s.scan.state = .locked → k = s.scan.geometry.facets →
      exec .indexPulse s = .next { s with scan := { s.scan with facetCount := 0 } }) ∧
    (s.scan.state = .locked → k ≠ s.scan.geometry.facets →
      ∃ t, exec .indexPulse s = .next t ∧ LockLost .facetCount s t) ∧
    (s.scan.state = .locked → ∃ t, exec .noSignalWatchdogExpiry s = .next t ∧ LockLost .noSignal s t) ∧
    (s.scan.state = .unlocked ∨ (∃ cause, s.scan.state = .lost cause) →
      exec (.sosPulse elapsed) s = .next { s with scan := { s.scan with
        sosSeen := true, period := if s.scan.sosSeen then some m else none } } ∧
      exec .indexPulse s = .next s ∧ exec .noSignalWatchdogExpiry s = .next s ∧
      exec .calibrationIndexDeadline s = .next s ∧ exec .sosGapWatchdogExpiry s = .next s)

/-! ## Lasers, monitor and trim (08) -/

/-- R153, R155: Enable Lasers takes named OFF channels to READY or WARMING by their LASER_READY; Disable Lasers
takes named channels to OFF. The reply carries the three states. -/
def Obligations.LaserRequestsMoveChannels : Prop :=
  ∀ (rt mask : Byte) (m : Message) (s : State),
    let fault (ch : Channel) : Bool := named mask ch && decide (s.lasers.get ch = .fault)
    let states (l : Rgb LaserState) : List Byte := u8 l.red.code ++ u8 l.green.code ++ u8 l.blue.code
    (s.Handed (.enableLasers rt mask) m →
      let checks : List Check :=
        [ (!maskOk mask, .badValue, 1),
          (decide (s.pins.levels.interlock = false), .interlock, 0),
          (s.monitor.targets.isNone, .notReady, 0xFFFF),
          (fault .red, .notReady, 0), (fault .green, .notReady, 1), (fault .blue, .notReady, 2) ]
      FirstRefusal (.enableLasers rt mask) m s checks ∧
      (passes checks → ∃ lasers, Accepted (.enableLasers rt mask) m s { s with lasers := lasers } (states lasers) ∧
        ∀ ch, lasers.get ch =
          if named mask ch = true ∧ s.lasers.get ch = .off then
            (if s.pins.levels.laserReady.get ch then .ready else .warming)
          else s.lasers.get ch)) ∧
    (s.Handed (.disableLasers rt mask) m →
      let checks : List Check := [(decide (s.run.state ≠ .stopped), .busy, 0), (!maskOk mask, .badValue, 1)]
      FirstRefusal (.disableLasers rt mask) m s checks ∧
      (passes checks → ∃ lasers, Accepted (.disableLasers rt mask) m s { s with lasers := lasers } (states lasers) ∧
        ∀ ch, lasers.get ch = if named mask ch then .off else s.lasers.get ch))

/-- R120, R154, R156: a change of INTERLOCK or LASER_READY sets its changed flag and raises LINES. The opening of the
interlock blanks every channel, turns all OFF and meets the run; its closing turns none on. A LASER_READY that rises takes
WARMING to READY; one that falls takes READY to FAULT, and the first channel so faulted meets the run. Where the run is
STOPPED no HALT is raised. (That a change to the levels the lines already have changes nothing is the model's
choice, log 3; that one command carries the three LASER_READY levels is log 22.) -/
def Obligations.LaserInputsGateDrive : Prop :=
  ∀ (s : State), s.resetPin = false →
    let lines (l c : Lines) : State := State.raise .lines { s with pins := ⟨l, c⟩ }
    let dark (l : Rgb LaserState) (x : State) : State := { x with
      lasers := l
      drive := none
      monitor := { x.monitor with channels := x.monitor.channels.map fun c => { c with expecting := false } } }
    (∀ level : Bool,
      let u := lines { s.pins.levels with interlock := level } { s.pins.changed with interlock := true }
      (level = s.pins.levels.interlock → exec (.interlockChange level) s = .next s) ∧
      (level ≠ s.pins.levels.interlock → level = true → exec (.interlockChange level) s = .next u) ∧
      (level ≠ s.pins.levels.interlock → level = false →
        ∃ t, exec (.interlockChange level) s = .next t ∧ t.lasers = ⟨.off, .off, .off⟩ ∧ t.drive = none ∧
          MetFault .interlock .interlock none u t ∧ RunTouched (dark ⟨.off, .off, .off⟩ u) t)) ∧
    (∀ levels : Rgb Bool, levels ≠ s.pins.levels.laserReady →
      let old := s.pins.levels.laserReady
      let u := lines { s.pins.levels with laserReady := levels } { s.pins.changed with
        laserReady := Rgb.zip (· || ·) s.pins.changed.laserReady (Rgb.zip xor old levels) }
      let fails (ch : Channel) : Prop := old.get ch = true ∧ levels.get ch = false ∧ s.lasers.get ch = .ready
      ∃ t, exec (.laserReadyChange levels) s = .next t ∧
        (∀ ch, t.lasers.get ch =
          if old.get ch = false ∧ levels.get ch = true ∧ s.lasers.get ch = .warming then .ready
          else if old.get ch = true ∧ levels.get ch = false ∧ s.lasers.get ch = .ready then .fault
          else s.lasers.get ch) ∧
        ((∀ ch, ¬ fails ch) → t = { u with lasers := t.lasers }) ∧
        (∀ ch, fails ch → (∀ x : Channel, x.code < ch.code → ¬ fails x) → t.drive = none ∧
          MetFault .laserFault .laserFault (some ch) u t ∧ RunTouched (dark t.lasers u) t)) ∧
    exec (.laserReadyChange s.pins.levels.laserReady) s = .next s

/-- R109, R160: the loss of a monitor clock sets CLOCK_LOST and ends the reading; a frame in EXPOSING becomes suspect,
one in PREPARING halts with MONITOR_LOST. The return makes the clock present and nothing else. (That the loss of a clock
already lost changes nothing is the model's choice, log 3.) -/
def Obligations.MonitorClockIsWatched : Prop :=
  ∀ (ch : Channel) (s : State), s.resetPin = false →
    let c := s.monitor.channels.get ch
    let v : State := s.setChannel ch { c with
      lost := true, expecting := false, flags := { c.flags with clockLost := true } }
    let u : State := if c.flags.clockLost then v else v.raise .monitor
    exec (.monitorClockReturn ch) s = .next (s.setChannel ch { c with lost := false }) ∧
    (c.lost = true → exec (.monitorClockLost ch) s = .next s) ∧
    (c.lost = false →
      (s.seq.phase = .between → exec (.monitorClockLost ch) s = .next u) ∧
      (s.seq.phase = .exposing → exec (.monitorClockLost ch) s = .next
        { u with seq := { s.seq with suspect := match s.seq.suspect with | some x => some x | none => some ch } }) ∧
      (s.seq.phase = .preparing → ∃ t, exec (.monitorClockLost ch) s = .next t ∧ Halted .monitorLost u t ∧
        HaltFrame u t ∧ t.jobs = s.jobs ∧ t.log = s.log))

/-- R166, R167: Set Power Targets: its checks in order, the values it sets, the trims at 4096 and the means invalid.
Read Monitor reports each channel in eight bytes and then clears the fresh flags. -/
def Obligations.PowerTargetsAndReadMonitor : Prop :=
  ∀ (rt : Byte) (m : Message) (s : State),
    (∀ p : PowerItems, s.Handed (.setPowerTargets rt p) m →
      let badSoft (t : TargetItems) : Bool := decide (¬ (1 ≤ t.soft.toNat ∧ t.soft.toNat ≤ 1024))
      let badHard (t : TargetItems) : Bool := decide (¬ (t.soft.toNat < t.hard.toNat ∧ t.hard.toNat ≤ 2048))
      let checks : List Check :=
        [ (decide (s.run.state ≠ .stopped), .busy, 0),
          (decide (p.channels.red.target.toNat = 0), .badValue, 1),
          (decide (p.channels.green.target.toNat = 0), .badValue, 4),
          (decide (p.channels.blue.target.toNat = 0), .badValue, 7),
          (badSoft p.channels.red, .badValue, 2),
          (badSoft p.channels.green, .badValue, 5),
          (badSoft p.channels.blue, .badValue, 8),
          (badHard p.channels.red, .badValue, 3),
          (badHard p.channels.green, .badValue, 6),
          (badHard p.channels.blue, .badValue, 9),
          (decide (16 < p.hardCount.toNat), .badValue, 10),
          (decide (¬ (16 ≤ p.osr.toNat ∧ p.osr.toNat ≤ 256)), .badValue, 11) ]
      let value (t : TargetItems) : Target := ⟨t.target.toNat, t.soft.toNat, t.hard.toNat⟩
      let targets : PowerTargets :=
        { channels := ⟨value p.channels.red, value p.channels.green, value p.channels.blue⟩
          hardCount := if p.hardCount.toNat = 0 then 2 else p.hardCount.toNat
          osr := p.osr.toNat }
      FirstRefusal (.setPowerTargets rt p) m s checks ∧
      (passes checks → Accepted (.setPowerTargets rt p) m s
        { s with monitor := ⟨some targets, s.monitor.channels.map fun c =>
          { c with trim := 4096, valid := false, breaches := 0 }⟩ } [])) ∧
    (s.Handed (.readMonitor rt) m →
      let report (c : MonitorChannel) : List Byte :=
        u16 c.latest ++ u8 (if c.isFresh then 1 else 0) ++ u16 c.trim ++
          (if c.valid then u8 1 ++ u16 c.mean else [0, 0, 0])
      Accepted (.readMonitor rt) m s
        { s with monitor := { s.monitor with
            channels := s.monitor.channels.map fun c => { c with isFresh := false } } }
        (report s.monitor.channels.red ++ report s.monitor.channels.green ++ report s.monitor.channels.blue))

/-- R159, R161, R163: readings in EXPOSING: each channel's filter counts the ones among its first OSR samples after the
facet sync, where all of them fall within the reference pulse, and gives no reading otherwise; the readings so completed
are taken, judged, summed and counted on each channel, and the first channel whose breach counter reaches the hard count
spoils the frame with POWER_FAULT. Outside EXPOSING no reading is taken. (That a command carries the clock edges of the
line, that the readings it completes are those of one instant, all taken before a spoil, and that an edge at the active
start itself is outside the pulse, is the model's choice, log 21.) -/
def Obligations.PowerReadingIsJudged : Prop :=
  (∀ (edges : Rgb (List ClockEdge)) (s : State), s.resetPin = false → s.seq.phase ≠ .exposing →
    exec (.powerReading edges) s = .next s) ∧
  ∀ (edges : Rgb (List ClockEdge)) (s : State) (p : PowerTargets), s.resetPin = false → s.monitor.targets = some p →
    s.seq.phase = .exposing →
    let pulse := (s.drive.map fun l => l.delay * 1000).getD 0
    ∃ ones : Rgb (Option Nat),
      (∀ ch n, ones.get ch = some n ↔ ReadingCompletes p.osr pulse (edges.get ch) n) ∧
      let after (ch : Channel) : MonitorChannel :=
        readingTaken p.osr (p.channels.get ch) (ones.get ch) (s.monitor.channels.get ch)
      let reaches (ch : Channel) : Prop := breached p.hardCount (s.monitor.channels.get ch) (after ch)
      let taken : State := { s with monitor := ⟨some p, ⟨after .red, after .green, after .blue⟩⟩ }
      let u : State :=
        if (after .red).flags = s.monitor.channels.red.flags ∧ (after .green).flags = s.monitor.channels.green.flags ∧
            (after .blue).flags = s.monitor.channels.blue.flags then taken
        else taken.raise .monitor
      ((∀ ch, ¬ reaches ch) → exec (.powerReading edges) s = .next u) ∧
      (∀ ch, reaches ch → (∀ x : Channel, x.code < ch.code → ¬ reaches x) →
        ∃ t, exec (.powerReading edges) s = .next t ∧
          Spoiled .powerFault .powerFault s.seq.lineCounter (some ch) u t ∧ HaltFrame u t)

/-- R165, R161: the trim update of each channel: a valid mean that is not applied moves the trim by the rule and is
marked applied, and TRIM_LIMIT is set where the clamp acts; any other channel keeps its trim and marks. A flag set from
clear raises the MONITOR notice. (Entry to PREPARING makes this update: `Preparing`, R92.) -/
def Obligations.TrimUpdateFollowsMean : Prop :=
  ∀ (s : State) (ch : Channel),
    let c := s.monitor.channels.get ch
    let t := s.trimUpdate
    let c' := t.monitor.channels.get ch
    (∀ p, s.monitor.targets = some p → c.valid = true → c.applied = false →
      let raw := c.trim * (p.channels.get ch).target / (if c.mean = 0 then 1 else c.mean)
      let stepped := max (c.trim - 64) (min (c.trim + 64) raw)
      c' = { c with
        trim := max 3072 (min 5120 stepped)
        applied := true
        flags := { c.flags with trimLimit := c.flags.trimLimit || decide (stepped < 3072 ∨ 5120 < stepped) } }) ∧
    (s.monitor.targets = none ∨ c.valid = false ∨ c.applied = true → c' = c) ∧
    ((∀ x, (t.monitor.channels.get x).flags = (s.monitor.channels.get x).flags) → t.link = s.link) ∧
    ((t.monitor.channels.get ch).flags ≠ (s.monitor.channels.get ch).flags → t.link = (s.raise .monitor).link) ∧
    t = { s with monitor := t.monitor
                 link := { s.link with notices := t.link.notices, transmitter := t.link.transmitter } } ∧
    t.monitor.targets = s.monitor.targets

/-! ## Spoil Log (09) and host link (10) -/

/-- R172, R173: Take Spoil Entries removes and returns the oldest entries, at most as many as asked for; the unsent
count falls with the entries not yet notified, and a notice of a removed entry that is being sent is marked. R192: the
ten bytes of an entry, by offset. -/
def Obligations.TakeSpoilEntriesRemovesOldest : Prop :=
  (∀ e : SpoilEntry, EntryLaidOut e e.record) ∧
  ∀ (rt count : Byte) (m : Message) (s : State), s.Handed (.takeSpoilEntries rt count) m →
    let k := min count.toNat s.log.entries.length
    let checks : List Check := [(decide (¬ (1 ≤ count.toNat ∧ count.toNat ≤ 8)), .badValue, 1)]
    FirstRefusal (.takeSpoilEntries rt count) m s checks ∧
    (passes checks → ∃ transmitter,
      Accepted (.takeSpoilEntries rt count) m s
        { s with
          log := ⟨s.log.entries.drop k, min s.log.unsent (s.log.entries.length - k)⟩
          link := { s.link with transmitter := transmitter } }
        (u8 k ++ (s.log.entries.take k).flatMap SpoilEntry.record ++ u8 (s.log.entries.length - k)) ∧
      (∀ removed msg, s.link.transmitter = some ⟨.spoil removed, msg⟩ →
        transmitter = some ⟨.spoil (removed || decide (s.log.entries.length - s.log.unsent < k)), msg⟩) ∧
      ((∀ removed msg, s.link.transmitter ≠ some ⟨.spoil removed, msg⟩) → transmitter = s.link.transmitter))

/-- R162, R187, R192, R193: Get Status answers with the status record as it stands, its 40 bytes laid out by offset, and
then clears the link flags, the changed flags, and each monitor flag whose condition is no longer present. (That the
clearing falls in the step that builds the record is the model's choice, log 32; that the fault cause outside FAULT and
the loss cause outside LOST are sent as 0 is log 28.) -/
def Obligations.GetStatusReportsAndClears : Prop :=
  ∀ (rt : Byte) (m : Message) (s : State), s.Handed (.getStatus rt) m →
    ∃ monitor, Accepted (.getStatus rt) m s
      { s with
        link := { s.link with flags := ⟨false, false, false⟩ }
        pins := { s.pins with changed := Lines.none }
        monitor := monitor } s.statusRecord ∧
      StatusLaidOut s s.statusRecord ∧
      monitor.targets = s.monitor.targets ∧
      ∀ ch, let c := s.monitor.channels.get ch
        (∀ p, s.monitor.targets = some p →
          let t := p.channels.get ch
          monitor.channels.get ch = { c with flags :=
            ⟨c.flags.softHigh && outside c.latest t.target t.soft, c.flags.softLow && outside c.latest t.target t.soft,
              c.flags.hardHigh && outside c.latest t.target t.hard, c.flags.hardLow && outside c.latest t.target t.hard,
              c.flags.clockLost && c.lost, false⟩ }) ∧
        (s.monitor.targets = none → monitor.channels.get ch = { c with flags :=
          { c.flags with clockLost := c.flags.clockLost && c.lost, trimLimit := false } })

/-- R185, R186: Set Notices sets the mask and clears the flags of the classes it disables; a notice of such a class
that is being sent is completed and leaves no flag behind. An event that raises a class sets its flag where the class is
enabled, and marks a notice of the class that is being sent, so that its end leaves the flag set; any other message being
sent is as it was. -/
def Obligations.NoticesAreMaskedAndRaised : Prop :=
  (∀ (rt mask : Byte) (m : Message) (s : State), s.Handed (.setNotices rt mask) m →
    (7 < mask.toNat → Refused (.setNotices rt mask) m s .badValue 1) ∧
    (mask.toNat ≤ 7 → ∃ transmitter, Accepted (.setNotices rt mask) m s
      { s with link := { s.link with
          mask := ⟨mask.getLsbD 0, mask.getLsbD 1, mask.getLsbD 2⟩
          notices :=
            { halt := s.link.notices.halt
              scan := s.link.notices.scan && mask.getLsbD 0
              monitor := s.link.notices.monitor && mask.getLsbD 1
              lines := s.link.notices.lines && mask.getLsbD 2 }
          transmitter := transmitter } } [mask] ∧
      (∀ c again msg, s.link.transmitter = some ⟨.flag c again, msg⟩ →
        transmitter = some ⟨.flag c (again && match c with
          | .halt => true
          | .scan => mask.getLsbD 0
          | .monitor => mask.getLsbD 1
          | .lines => mask.getLsbD 2), msg⟩) ∧
      ((∀ c again msg, s.link.transmitter ≠ some ⟨.flag c again, msg⟩) → transmitter = s.link.transmitter))) ∧
  (∀ (c : FlagClass) (s : State),
    let on : Bool := match c with
      | .halt => true
      | .scan => s.link.mask.scan
      | .monitor => s.link.mask.monitor
      | .lines => s.link.mask.lines
    (on = false → s.raise c = s) ∧
    (on = true → (s.raise c).link.notices.get c = true ∧
      (∀ c', c' ≠ c → (s.raise c).link.notices.get c' = s.link.notices.get c') ∧
      (∀ again msg, s.link.transmitter = some ⟨.flag c again, msg⟩ →
        (s.raise c).link.transmitter = some ⟨.flag c true, msg⟩) ∧
      ((∀ again msg, s.link.transmitter ≠ some ⟨.flag c again, msg⟩) →
        (s.raise c).link.transmitter = s.link.transmitter) ∧
      s.raise c = { s with link := { s.link with
        notices := (s.raise c).link.notices, transmitter := (s.raise c).link.transmitter } }))

/-- R177, R178, R180: a whole message that arrives while the receiver hunts and a place is free is taken and examined
at once where no request is current, and held behind the current request otherwise. R178, R188: LRDY is asserted while
at least one of the two places is free and the RESET pin released, a message in reception taking a place; so it is
asserted as such a message arrives, and after it unless the message holds the second place. R176: the bits that carry
the message's bytes one after another, each least significant bit first, are received as those bytes. -/
def Obligations.WholeMessageIsHeldOrTaken : Prop :=
  (∀ s : State, s.lrdy = true ↔ s.resetPin = false ∧
    s.link.buffer.length + (if s.link.receiver = .hunting then 0 else 1) < 2) ∧
  ∀ (m : Message) (s : State), s.resetPin = false → s.link.receiver = .hunting →
    m.payload.length ≤ 8200 → s.link.buffer.length < 2 → s.lrdy = true ∧
    (∀ pair : List Bool, (∀ k, pair[k]? = (m.frame[k / 8]?).map fun b => b.getLsbD (k % 8)) →
      lineBytes pair = m.frame) ∧
    (∃ t, exec (.messageReceived m.frame) s = .next t ∧
      (s.link.buffer = [] → t.lrdy = true) ∧
      (s.link.current ≠ none → s.link.buffer.length = 1 → t.lrdy = false)) ∧
    (s.link.current = none → s.link.buffer = [] → exec (.messageReceived m.frame) s =
      .next { s with link := { s.link with current := some ⟨m, examineMessage m⟩ } }) ∧
    (s.link.current ≠ none → exec (.messageReceived m.frame) s =
      .next { s with link := { s.link with buffer := s.link.buffer ++ [m] } })

/-- R177, R179: receptions that come to nothing: bytes passed over while hunting, a message refused for overrun, a
length above 8,200, a wrong CRC-16, a gap between bytes. Each changes a link flag and nothing else. (That an inter-byte
gap timeout while hunting changes nothing is the model's choice, log 3.) -/
def Obligations.FaultyReceptionsAreDiscarded : Prop :=
  ∀ (s : State), s.resetPin = false →
    let flag (f : LinkFlags) : State := { s with link := { s.link with receiver := .hunting, flags := f } }
    (s.link.receiver = .hunting →
      (∀ bytes : List Byte, (0xC5 : Byte) ∉ bytes → exec (.messageReceived bytes) s = .next s) ∧
      (∀ m : Message, s.link.buffer.length = 2 →
        exec (.messageReceived m.frame) s = .next (flag { s.link.flags with overrun := true })) ∧
      (∀ (type tag lo hi : Byte), s.link.buffer.length < 2 → 8200 < (hi ++ lo).toNat →
        exec (.messageReceived [0xC5, type, tag, lo, hi]) s = .next (flag { s.link.flags with framing := true })) ∧
      (∀ (m : Message) (check : Half), s.link.buffer.length < 2 → m.payload.length ≤ 8200 → check ≠ crc16 m.covered →
        exec (.messageReceived (0xC5 :: m.covered ++ halfBytes check)) s =
          .next (flag { s.link.flags with crc := true })) ∧
      exec .interByteGapTimeout s = .next s) ∧
    (s.link.receiver ≠ .hunting →
      exec .interByteGapTimeout s = .next (flag { s.link.flags with framing := true }))

/-- R181, R190: the link's examination of a request, by the type-code table: the lengths of the 32 types of fixed
length and of the three whose length follows a count, and the refusal of every other type. -/
def Obligations.LinkExaminesTypeAndLength : Prop :=
  ∀ m : Message,
    let table : List (Nat × Nat) :=
      [(0x01, 19), (0x02, 2), (0x03, 2), (0x08, 8), (0x09, 2), (0x0A, 2), (0x0C, 2), (0x10, 1), (0x12, 1), (0x13, 1),
       (0x14, 1), (0x15, 1), (0x18, 3), (0x19, 1), (0x1A, 0), (0x1B, 2), (0x20, 11), (0x21, 0), (0x22, 1), (0x23, 1),
       (0x24, 0), (0x25, 3), (0x28, 11), (0x2A, 0), (0x30, 1), (0x31, 1), (0x32, 21), (0x33, 0), (0x38, 1), (0x3C, 0),
       (0x3D, 1), (0x3E, 0)]
    let judged (n : Nat) : Prop :=
      (m.payload.length = n → examineMessage m = .handed) ∧
      (m.payload.length ≠ n → examineMessage m = .replyPending (.refuse .badLength (if 0xFFFF < n then 0xFFFF else n)))
    (∀ n, (m.type.toNat, n) ∈ table → judged n) ∧
    (∀ size : Nat, (m.type = 0x0B ∧ size = 2) ∨ (m.type = 0x11 ∧ size = 3) →
      (m.payload.length < 6 → judged 6) ∧
      (∀ a b c d lo hi rest, m.payload = a :: b :: c :: d :: lo :: hi :: rest →
        judged (6 + size * (hi ++ lo).toNat))) ∧
    (m.type = 0x29 → (m.payload = [] → judged 1) ∧
      ∀ count rest, m.payload = count :: rest → judged (1 + 2 * count.toNat)) ∧
    ((∀ n, (m.type.toNat, n) ∉ table) → m.type ≠ 0x0B → m.type ≠ 0x11 → m.type ≠ 0x29 →
      examineMessage m = .replyPending (.refuse .unknownType m.type.toNat))

/-- R180, R182: how a request command reaches its block. Arriving on a free link, a well-formed request is taken,
passes the link's examination and is carried out as the current request; behind another request it waits in the buffer, or
is discarded for overrun. (That arrival and carrying out are one step is the model's choice, log 4.) -/
def Obligations.RequestCommandReachesBlock : Prop :=
  ∀ (i : Instr) (m : Message) (s : State), i.wellFormed = true → i.encode = some m → s.resetPin = false →
    s.link.receiver = .hunting →
    (s.link.current = none → s.link.buffer = [] →
      exec i s = exec i { s with link := { s.link with current := some ⟨m, .handed⟩ } }) ∧
    (∀ c, s.link.current = some c → s.isHanded i = false →
      (s.link.buffer.length < 2 → exec i s = .next { s with link := { s.link with buffer := s.link.buffer ++ [m] } }) ∧
      (2 ≤ s.link.buffer.length → exec i s =
        .next { s with link := { s.link with flags := { s.link.flags with overrun := true } } }))

/-- R190: every well-formed request is read back from the message it is sent as, with every operand at every value its
fields admit. -/
def Obligations.RequestsAreReadBack : Prop :=
  ∀ (i : Instr) (m : Message), i.wellFormed = true → i.encode = some m → m.decode = some i

/-- R176, R184, R185: at the transmitter's moment with HRDY asserted and the transmitter idle, the reply to the current
request goes first, else the first pending notice in the order HALT, SPOIL, JOB_RESULT, SCAN, MONITOR, LINES, with its
content as it stands; with HRDY deasserted, a message under way, or nothing pending, no message is begun. R185, R191 to
R193: the content of each class, by offset (the loss cause outside LOST is sent as 0, log 28). R176: the transmit pair
carries the frame of the message under transmission byte after byte, each least significant bit first, and idles with
none. (The pair as a function of the state is log 6.) -/
def Obligations.TransmitterChoosesInOrder : Prop :=
  ∀ (s : State), s.resetPin = false →
    let sends (t : Option Transmission) : Prop :=
      exec (.transmitStart true) s = .next { s with link := { s.link with hrdy := true, transmitter := t } }
    let notice (b : Byte) (content : List Byte) : Message := ⟨0x82, 0, b :: content⟩
    let n := s.link.notices
    (HaltLaidOut s.run.halt (haltRecordBytes s.run.halt) 0 ∧ (haltRecordBytes s.run.halt).length = 6) ∧
    (∀ e : SpoilEntry, EntryLaidOut e e.record) ∧ (∀ j : Job, JobLaidOut j j.record) ∧
    ScanLaidOut s.scan s.scan.content ∧
    (MonitorLaidOut s.monitor s.monitor.content 0 ∧ s.monitor.content.length = 9) ∧
    s.pins.content = lineByte s.pins.levels ++ lineByte s.pins.changed ∧
    (s.link.transmitter = none → s.transmitPair = []) ∧
    (∀ sending msg k, s.link.transmitter = some ⟨sending, msg⟩ →
      s.transmitPair[k]? = (msg.frame[k / 8]?).map fun b => b.getLsbD (k % 8)) ∧
    exec (.transmitStart false) s = .next { s with link := { s.link with hrdy := false } } ∧
    (s.link.transmitter ≠ none → sends s.link.transmitter) ∧
    (s.link.transmitter = none →
      (∀ q items, s.link.current = some ⟨q, .replyPending (.accept items)⟩ →
        exec (.transmitStart true) s = .next { s with link := { s.link with
          hrdy := true
          current := some ⟨q, .replySending⟩
          transmitter := some ⟨.reply (.accept items), ⟨0x80, q.tag, q.type :: items⟩⟩ } }) ∧
      (∀ q code detail, s.link.current = some ⟨q, .replyPending (.refuse code detail)⟩ →
        exec (.transmitStart true) s = .next { s with link := { s.link with
          hrdy := true
          current := some ⟨q, .replySending⟩
          transmitter := some ⟨.reply (.refuse code detail),
            ⟨0x81, q.tag, [q.type, BitVec.ofNat 8 code.code] ++ u16 detail⟩⟩ } }) ∧
      ((∀ q r, s.link.current ≠ some ⟨q, .replyPending r⟩) →
        (n.halt = true → sends (some ⟨.flag .halt false, notice 1 (haltRecordBytes s.run.halt)⟩)) ∧
        (n.halt = false →
          (∀ before e after, s.log.entries = before ++ e :: after → s.log.unsent = after.length + 1 →
            sends (some ⟨.spoil false, notice 2 e.record⟩)) ∧
          (s.log.unsent = 0 →
            (∀ j rest, s.jobs.results = j :: rest → sends (some ⟨.jobResult, notice 3 j.record⟩)) ∧
            (s.jobs.results = [] →
              (n.scan = true → sends (some ⟨.flag .scan false, notice 4 s.scan.content⟩)) ∧
              (n.scan = false → n.monitor = true →
                sends (some ⟨.flag .monitor false, notice 5 s.monitor.content⟩)) ∧
              (n.scan = false → n.monitor = false → n.lines = true →
                sends (some ⟨.flag .lines false, notice 6 s.pins.content⟩)) ∧
              (n.scan = false → n.monitor = false → n.lines = false → sends none))))))

/-- R3, R172, R180, R185: the last byte of a message. The end of a reply completes the request, and the next message is
taken and examined; the end of a notice clears its flag unless it was raised again, moves the cursor on unless the entry
was removed, or empties the RESULT slot. (That MESSAGE_TRANSMITTED with no message under way changes nothing is the
model's choice, log 3.) -/
def Obligations.EndOfMessageTakesEffect : Prop :=
  ∀ (s : State) (msg : Message), s.resetPin = false →
    (s.link.transmitter = none → exec .messageTransmitted s = .next s) ∧
    (∀ r q stage, s.link.transmitter = some ⟨.reply r, msg⟩ → s.link.current = some ⟨q, stage⟩ →
      (q.type ≠ 0x3E ∨ ∃ code detail, r = .refuse code detail) →
      (s.link.buffer = [] → exec .messageTransmitted s =
        .next { s with link := { s.link with transmitter := none, current := none } }) ∧
      (∀ next rest, s.link.buffer = next :: rest → exec .messageTransmitted s =
        .next { s with link := { s.link with
          transmitter := none, current := some ⟨next, examineMessage next⟩, buffer := rest } })) ∧
    (∀ c again, s.link.transmitter = some ⟨.flag c again, msg⟩ →
      ∃ t, exec .messageTransmitted s = .next t ∧ t.link.notices.get c = again ∧
        (∀ c', c' ≠ c → t.link.notices.get c' = s.link.notices.get c') ∧
        t = { s with link := { s.link with transmitter := none, notices := t.link.notices } }) ∧
    (∀ removed, s.link.transmitter = some ⟨.spoil removed, msg⟩ → exec .messageTransmitted s =
      .next { s with
        link := { s.link with transmitter := none }
        log := { s.log with unsent := if removed then s.log.unsent else s.log.unsent - 1 } }) ∧
    (s.link.transmitter = some ⟨.jobResult, msg⟩ → exec .messageTransmitted s =
      .next { s with
        link := { s.link with transmitter := none }
        jobs := { s.jobs with results := s.jobs.results.tail } })

/-- R23, R86, R114, R135, R169, R189: Soft Reset is accepted at once; its effects take hold when the last byte of the
reply has been sent: run and frame, Job Store and use counts, transport, lasers and monitor, link; the rest is kept.
R43, R46: the prefetcher's claim is given up. (That a read in progress goes on, its words discarded, as R43 says, though
R46 calls the arbiter idle, is the model's reading, log 16.) -/
def Obligations.SoftResetTakesHoldAtReplyEnd : Prop :=
  (∀ (rt : Byte) (m : Message) (s : State), s.Handed (.softReset rt) m → Accepted (.softReset rt) m s s []) ∧
  (∀ (s : State) (q msg : Message) (stage : Stage) (items : List Byte), s.resetPin = false →
    s.link.transmitter = some ⟨.reply (.accept items), msg⟩ → s.link.current = some ⟨q, stage⟩ → q.type = 0x3E →
    ∃ t, exec .messageTransmitted s = .next t ∧
      t.run = { s.run with
        state := .stopped, pendingStop := .none
        halt := some ⟨.softReset, s.transport.position, s.jobs.live.head?.map Job.tag⟩ } ∧
      t.seq = ⟨.between, 0, none, [], 0, false, none, none⟩ ∧ t.drive = none ∧
      (s.seq.phase = .exposing → t.log = ⟨s.log.entries ++ [⟨.spoiled, s.transport.position,
        (s.jobs.live.head?.map Job.tag).getD 0, .softReset, some s.seq.lineCounter, none⟩], s.log.unsent + 1⟩) ∧
      (s.seq.phase ≠ .exposing → t.log = s.log) ∧
      t.jobs = ⟨[], []⟩ ∧
      (∀ k, Table.get t.planes k = (Table.get s.planes k).map fun d => { d with use := 0 }) ∧
      (∀ k, Table.get t.curves k = (Table.get s.curves k).map fun c => { c with use := 0 }) ∧
      (s.transport.state = .advancing ∨ s.transport.state = .settling →
        t.transport = { s.transport with
          state := .opened, pullDownTimer := none, settleTimer := none, settleEnds := none, series := none }) ∧
      (s.transport.state ≠ .advancing → s.transport.state ≠ .settling → t.transport = s.transport) ∧
      t.lasers = ⟨.off, .off, .off⟩ ∧ t.monitor.targets = s.monitor.targets ∧
      (∀ ch, let c := s.monitor.channels.get ch
        t.monitor.channels.get ch = { c with
          expecting := false, breaches := 0, sum := 0, count := 0
          flags := ⟨false, false, false, false, c.flags.clockLost && c.lost, false⟩ }) ∧
      t.link = { s.link with
        current := none, buffer := [], transmitter := none
        notices := ⟨true, false, false, false⟩, flags := ⟨false, false, false⟩ } ∧
      ClaimWithdrawn s.arbiter t.arbiter ∧
      t.store = s.store ∧ t.freeEpoch = s.freeEpoch ∧ t.placement = s.placement ∧ t.reel = s.reel ∧
      t.scan = s.scan ∧ t.pins = s.pins ∧ t.resetPin = false)

/-- R22, R45, R63, R85, R113, R134, R150, R168, R175, R176, R188: the assertion of the RESET pin puts every block in its
reset state, the input levels following the lines; its release reads the rate straps. While it is asserted, other
commands than a change of a line have no effect, and a change of a line moves its level alone, with no changed flag, the
transport being OPEN or EMPTY by FILM_PRESENT (log 10); out of reset a release has none (log 3). -/
def Obligations.HardwareResetSetsEveryBlock : Prop :=
  ∀ s : State,
    (∃ t, exec .hardwareReset s = .next t ∧ t.resetPin = true ∧
      t.jobs = ⟨[], []⟩ ∧ t.planes = [] ∧ t.curves = [] ∧
      t.arbiter = ⟨none, none, none, .planeWriter⟩ ∧ t.placement = .centered ∧
      t.run = ⟨.stopped, .endOnEmpty, .none, 2000, none⟩ ∧
      t.seq = ⟨.between, 0, none, [], 0, false, none, none⟩ ∧ t.drive = none ∧
      t.reel = none ∧
      t.transport = ⟨if s.pins.levels.filmPresent then .opened else .empty, 0, none, none, none, 0, .used, none, 500, 20⟩ ∧
      t.pins = ⟨s.pins.levels, Lines.none⟩ ∧
      t.scan.geometry = ⟨8, 50000, 10000, 500, 3, 4⟩ ∧ t.scan.captured = none ∧
      t.scan.corrections = [0, 0, 0, 0, 0, 0, 0, 0] ∧ t.scan.state = .unlocked ∧ t.scan.misses = 0 ∧
      t.scan.facetCount = 0 ∧ t.scan.outcome = .none ∧ t.scan.calibration = none ∧ t.scan.noSignal = none ∧
      t.scan.sosSeen = false ∧
      t.lasers = ⟨.off, .off, .off⟩ ∧ t.monitor.targets = none ∧
      (∀ ch, let c := t.monitor.channels.get ch
        c.trim = 4096 ∧ c.latest = 0 ∧ c.isFresh = false ∧ c.flags = ⟨false, false, false, false, false, false⟩ ∧
        c.breaches = 0 ∧ c.sum = 0 ∧ c.count = 0 ∧ c.valid = false ∧ c.applied = false) ∧
      t.log = ⟨[], 0⟩ ∧
      t.link.receiver = .hunting ∧ t.link.buffer = [] ∧ t.link.current = none ∧ t.link.transmitter = none ∧
      t.link.notices = ⟨false, false, false, false⟩ ∧ t.link.mask = ⟨true, true, true⟩ ∧
      t.link.flags = ⟨false, false, false⟩ ∧ t.lrdy = false) ∧
    (∀ rate1 rate0 : Bool, s.resetPin = true →
      exec (.resetRelease rate1 rate0) s = .next { s with
        resetPin := false
        link := { s.link with rate := if rate1 then .mbit200 else if rate0 then .mbit100 else .mbit50 } }) ∧
    (∀ rate1 rate0 : Bool, s.resetPin = false → exec (.resetRelease rate1 rate0) s = .next s) ∧
    (s.resetPin = true → ∀ c : Instr, c ≠ .hardwareReset → (∀ a b, c ≠ .resetRelease a b) →
      (∀ l, c ≠ .filmPresentChange l) → (∀ l, c ≠ .tensionOkChange l) → (∀ l, c ≠ .gateClosedChange l) →
      (∀ l, c ≠ .endSensorChange l) → (∀ l, c ≠ .interlockChange l) → (∀ l, c ≠ .laserReadyChange l) →
      exec c s = .next s) ∧
    (s.resetPin = true → ∀ (level : Bool) (levels : Rgb Bool),
      let l := s.pins.levels
      let moved (x : Lines) : State := { s with
        pins := ⟨x, Lines.none⟩
        transport :=
          ⟨if x.filmPresent then .opened else .empty, 0, none, none, none, 0, .used, none, 500, 20⟩ }
      exec (.filmPresentChange level) s = .next (moved { l with filmPresent := level }) ∧
      exec (.tensionOkChange level) s = .next (moved { l with tensionOk := level }) ∧
      exec (.gateClosedChange level) s = .next (moved { l with gateClosed := level }) ∧
      exec (.endSensorChange level) s = .next (moved { l with endSensor := level }) ∧
      exec (.interlockChange level) s = .next (moved { l with interlock := level }) ∧
      exec (.laserReadyChange levels) s = .next (moved { l with laserReady := levels }))

/-! ## Invariants -/

/-- Every invariant below holds right after reset. -/
def Obligations.InvariantsHoldAtReset : Prop :=
  DriveSafe State.reset ∧ TrimsInRange State.reset ∧ PositionInReel State.reset ∧ LogBounded State.reset ∧
    JobsBounded State.reset ∧ UsesCounted State.reset ∧ PlanesDisjoint State.reset ∧ FillsBounded State.reset ∧
    PlacesBounded State.reset ∧ QueueInOrder State.reset ∧ StoreCanonical State.reset

/-- R158: a step keeps laser drive within EXPOSING with the interlock CLOSED and every channel READY, so that in
every such state a channel whose outputs are not blanked is READY in a frame in EXPOSING with the interlock CLOSED. -/
def Obligations.StepKeepsDriveSafe : Prop :=
  (∀ s t : State, DriveSafe s → step s = .next t → DriveSafe t) ∧
  (∀ (s : State) (ch : Channel) (t : Nat), DriveSafe s → s.output ch t ≠ ⟨0, false, true⟩ →
    s.seq.phase = .exposing ∧ s.pins.levels.interlock = true ∧ s.lasers.get ch = .ready)

/-- R165: a step keeps every trim within 3072..5120. R126: it keeps the frame position below the capacity of the
open reel. -/
def Obligations.StepKeepsTrimsAndPosition : Prop :=
  (∀ s t : State, TrimsInRange s → step s = .next t → TrimsInRange t) ∧
  (∀ s t : State, PositionInReel s → step s = .next t → PositionInReel t)

/-- R1, R8: a step keeps at most 32 slots in use and no tag twice. R170, R174: it keeps the Spoil Log within 64
entries, with room for one more while a run is in progress. -/
def Obligations.StepKeepsStoresBounded : Prop :=
  (∀ s t : State, JobsBounded s → step s = .next t → JobsBounded t) ∧
  (∀ s t : State, LogBounded s → step s = .next t → LogBounded t)

/-- R10, R24, R26: a step keeps every use count equal to the number of LIVE jobs that name the descriptor or set. -/
def Obligations.StepKeepsUsesCounted : Prop :=
  ∀ s t : State, UsesCounted s → step s = .next t → UsesCounted t

/-- R26, R28, R34: a step keeps defined planes apart and within the frame store, and no fill mark above its limit. -/
def Obligations.StepKeepsPlanesInStore : Prop :=
  (∀ s t : State, PlanesDisjoint s → step s = .next t → PlanesDisjoint t) ∧
  (∀ s t : State, FillsBounded s → step s = .next t → FillsBounded t)

/-- R27, R88, R178: a step keeps the frame store canonical, the Line Prefetch Queue in line order with at most eight
sets, and at most two places of the receive buffer taken. -/
def Obligations.StepKeepsBuffersInOrder : Prop :=
  (∀ s t : State, StoreCanonical s → step s = .next t → StoreCanonical t) ∧
  (∀ s t : State, QueueInOrder s → step s = .next t → QueueInOrder t) ∧
  (∀ s t : State, PlacesBounded s → step s = .next t → PlacesBounded t)

end Slice0Statements
end

