-- ==== Sys2Proof/Laws/State.lean ====
section
/-! SUPPORT. What each record update of the model leaves unchanged, field by field, all true by `rfl`;
and the values held for the three channels. -/

namespace Sys2Proof

/-- A value of each channel, after a change of all three. -/
@[simp] theorem Rgb.get_map {α β : Type} (f : α → β) (x : Rgb α) (ch : Channel) : (x.map f).get ch = f (x.get ch) := by
  cases ch <;> rfl

/-- A value of each channel, of two joined channel by channel. -/
@[simp] theorem Rgb.get_zip {α β γ : Type} (f : α → β → γ) (x : Rgb α) (y : Rgb β) (ch : Channel) :
    (Rgb.zip f x y).get ch = f (x.get ch) (y.get ch) := by
  cases ch <;> rfl

/-- The first channel in the order red, green, blue of which a test holds. -/
theorem Rgb.first_some {α : Type} (p : α → Bool) (x : Rgb α) (ch : Channel) :
    x.first p = some ch ↔ p (x.get ch) = true ∧ ∀ y : Channel, y.code < ch.code → p (x.get y) = false := by
  have all (q : Channel → Prop) : (∀ y, q y) ↔ q .red ∧ q .green ∧ q .blue :=
    ⟨fun h => ⟨h _, h _, h _⟩, fun h y => by cases y <;> simp [h]⟩
  simp only [all]
  unfold Rgb.first
  cases ch <;> cases hr : p x.red <;> cases hg : p x.green <;> cases hb : p x.blue <;>
    simp [Rgb.get, Channel.code, hr, hg, hb]

/-- The test holds of no channel. -/
theorem Rgb.first_none {α : Type} (p : α → Bool) (x : Rgb α) :
    x.first p = none ↔ ∀ ch, p (x.get ch) = false := by
  have all (q : Channel → Prop) : (∀ y, q y) ↔ q .red ∧ q .green ∧ q .blue :=
    ⟨fun h => ⟨h _, h _, h _⟩, fun h y => by cases y <;> simp [h]⟩
  simp only [all]
  unfold Rgb.first
  cases hr : p x.red <;> cases hg : p x.green <;> cases hb : p x.blue <;> simp [Rgb.get, hr, hg, hb]

end Sys2Proof

namespace Sys2Proof.Machine

variable (s : State)

/-- A block's answer changes the link only. -/
@[simp] theorem State.answer_frame (r : Reply) :
    (s.answer r).resetPin = s.resetPin ∧
    (s.answer r).jobs = s.jobs ∧
    (s.answer r).planes = s.planes ∧
    (s.answer r).store = s.store ∧
    (s.answer r).arbiter = s.arbiter ∧
    (s.answer r).curves = s.curves ∧
    (s.answer r).placement = s.placement ∧
    (s.answer r).run = s.run ∧
    (s.answer r).seq = s.seq ∧
    (s.answer r).reel = s.reel ∧
    (s.answer r).transport = s.transport ∧
    (s.answer r).pins = s.pins ∧
    (s.answer r).scan = s.scan ∧
    (s.answer r).lasers = s.lasers ∧
    (s.answer r).drive = s.drive ∧
    (s.answer r).monitor = s.monitor ∧
    (s.answer r).log = s.log ∧
    (s.answer r).freeEpoch = s.freeEpoch ∧
    (s.answer r).pending = s.pending :=
  by and_intros <;> rfl

/-- Waiting for work outside the link changes the link only. -/
@[simp] theorem State.await_frame :
    (s.await).resetPin = s.resetPin ∧
    (s.await).jobs = s.jobs ∧
    (s.await).planes = s.planes ∧
    (s.await).store = s.store ∧
    (s.await).arbiter = s.arbiter ∧
    (s.await).curves = s.curves ∧
    (s.await).placement = s.placement ∧
    (s.await).run = s.run ∧
    (s.await).seq = s.seq ∧
    (s.await).reel = s.reel ∧
    (s.await).transport = s.transport ∧
    (s.await).pins = s.pins ∧
    (s.await).scan = s.scan ∧
    (s.await).lasers = s.lasers ∧
    (s.await).drive = s.drive ∧
    (s.await).monitor = s.monitor ∧
    (s.await).log = s.log ∧
    (s.await).freeEpoch = s.freeEpoch ∧
    (s.await).pending = s.pending :=
  by and_intros <;> rfl

/-- An ACCEPT reply changes the link only. -/
@[simp] theorem State.accept_frame (items : List Byte) :
    (s.accept items).resetPin = s.resetPin ∧
    (s.accept items).jobs = s.jobs ∧
    (s.accept items).planes = s.planes ∧
    (s.accept items).store = s.store ∧
    (s.accept items).arbiter = s.arbiter ∧
    (s.accept items).curves = s.curves ∧
    (s.accept items).placement = s.placement ∧
    (s.accept items).run = s.run ∧
    (s.accept items).seq = s.seq ∧
    (s.accept items).reel = s.reel ∧
    (s.accept items).transport = s.transport ∧
    (s.accept items).pins = s.pins ∧
    (s.accept items).scan = s.scan ∧
    (s.accept items).lasers = s.lasers ∧
    (s.accept items).drive = s.drive ∧
    (s.accept items).monitor = s.monitor ∧
    (s.accept items).log = s.log ∧
    (s.accept items).freeEpoch = s.freeEpoch ∧
    (s.accept items).pending = s.pending :=
  by and_intros <;> rfl

/-- Raising a notice class changes the link only. -/
@[simp] theorem State.raise_frame (c : FlagClass) :
    (s.raise c).resetPin = s.resetPin ∧
    (s.raise c).jobs = s.jobs ∧
    (s.raise c).planes = s.planes ∧
    (s.raise c).store = s.store ∧
    (s.raise c).arbiter = s.arbiter ∧
    (s.raise c).curves = s.curves ∧
    (s.raise c).placement = s.placement ∧
    (s.raise c).run = s.run ∧
    (s.raise c).seq = s.seq ∧
    (s.raise c).reel = s.reel ∧
    (s.raise c).transport = s.transport ∧
    (s.raise c).pins = s.pins ∧
    (s.raise c).scan = s.scan ∧
    (s.raise c).lasers = s.lasers ∧
    (s.raise c).drive = s.drive ∧
    (s.raise c).monitor = s.monitor ∧
    (s.raise c).log = s.log ∧
    (s.raise c).freeEpoch = s.freeEpoch ∧
    (s.raise c).pending = s.pending :=
  by and_intros <;> rfl

/-- A discard changes the link only. -/
@[simp] theorem State.setLinkFlag_frame (f : LinkFlag) :
    (s.setLinkFlag f).resetPin = s.resetPin ∧
    (s.setLinkFlag f).jobs = s.jobs ∧
    (s.setLinkFlag f).planes = s.planes ∧
    (s.setLinkFlag f).store = s.store ∧
    (s.setLinkFlag f).arbiter = s.arbiter ∧
    (s.setLinkFlag f).curves = s.curves ∧
    (s.setLinkFlag f).placement = s.placement ∧
    (s.setLinkFlag f).run = s.run ∧
    (s.setLinkFlag f).seq = s.seq ∧
    (s.setLinkFlag f).reel = s.reel ∧
    (s.setLinkFlag f).transport = s.transport ∧
    (s.setLinkFlag f).pins = s.pins ∧
    (s.setLinkFlag f).scan = s.scan ∧
    (s.setLinkFlag f).lasers = s.lasers ∧
    (s.setLinkFlag f).drive = s.drive ∧
    (s.setLinkFlag f).monitor = s.monitor ∧
    (s.setLinkFlag f).log = s.log ∧
    (s.setLinkFlag f).freeEpoch = s.freeEpoch ∧
    (s.setLinkFlag f).pending = s.pending :=
  by and_intros <;> rfl

/-- The receiver is part of the link. -/
@[simp] theorem State.setReceiver_frame (r : Receiver) :
    (s.setReceiver r).resetPin = s.resetPin ∧
    (s.setReceiver r).jobs = s.jobs ∧
    (s.setReceiver r).planes = s.planes ∧
    (s.setReceiver r).store = s.store ∧
    (s.setReceiver r).arbiter = s.arbiter ∧
    (s.setReceiver r).curves = s.curves ∧
    (s.setReceiver r).placement = s.placement ∧
    (s.setReceiver r).run = s.run ∧
    (s.setReceiver r).seq = s.seq ∧
    (s.setReceiver r).reel = s.reel ∧
    (s.setReceiver r).transport = s.transport ∧
    (s.setReceiver r).pins = s.pins ∧
    (s.setReceiver r).scan = s.scan ∧
    (s.setReceiver r).lasers = s.lasers ∧
    (s.setReceiver r).drive = s.drive ∧
    (s.setReceiver r).monitor = s.monitor ∧
    (s.setReceiver r).log = s.log ∧
    (s.setReceiver r).freeEpoch = s.freeEpoch ∧
    (s.setReceiver r).pending = s.pending :=
  by and_intros <;> rfl

/-- A monitor channel is part of the Power Monitor. -/
@[simp] theorem State.setChannel_frame (ch : Channel) (c : MonitorChannel) :
    (s.setChannel ch c).resetPin = s.resetPin ∧
    (s.setChannel ch c).link = s.link ∧
    (s.setChannel ch c).jobs = s.jobs ∧
    (s.setChannel ch c).planes = s.planes ∧
    (s.setChannel ch c).store = s.store ∧
    (s.setChannel ch c).arbiter = s.arbiter ∧
    (s.setChannel ch c).curves = s.curves ∧
    (s.setChannel ch c).placement = s.placement ∧
    (s.setChannel ch c).run = s.run ∧
    (s.setChannel ch c).seq = s.seq ∧
    (s.setChannel ch c).reel = s.reel ∧
    (s.setChannel ch c).transport = s.transport ∧
    (s.setChannel ch c).pins = s.pins ∧
    (s.setChannel ch c).scan = s.scan ∧
    (s.setChannel ch c).lasers = s.lasers ∧
    (s.setChannel ch c).drive = s.drive ∧
    (s.setChannel ch c).log = s.log ∧
    (s.setChannel ch c).freeEpoch = s.freeEpoch ∧
    (s.setChannel ch c).pending = s.pending :=
  by and_intros <;> rfl

/-- The head job is part of the Job Store. -/
@[simp] theorem State.modifyHead_frame (f : Job → Job) :
    (s.modifyHead f).resetPin = s.resetPin ∧
    (s.modifyHead f).link = s.link ∧
    (s.modifyHead f).planes = s.planes ∧
    (s.modifyHead f).store = s.store ∧
    (s.modifyHead f).arbiter = s.arbiter ∧
    (s.modifyHead f).curves = s.curves ∧
    (s.modifyHead f).placement = s.placement ∧
    (s.modifyHead f).run = s.run ∧
    (s.modifyHead f).seq = s.seq ∧
    (s.modifyHead f).reel = s.reel ∧
    (s.modifyHead f).transport = s.transport ∧
    (s.modifyHead f).pins = s.pins ∧
    (s.modifyHead f).scan = s.scan ∧
    (s.modifyHead f).lasers = s.lasers ∧
    (s.modifyHead f).drive = s.drive ∧
    (s.modifyHead f).monitor = s.monitor ∧
    (s.modifyHead f).log = s.log ∧
    (s.modifyHead f).freeEpoch = s.freeEpoch ∧
    (s.modifyHead f).pending = s.pending :=
  by and_intros <;> rfl

/-- Claiming use counts changes the two tables only. -/
@[simp] theorem State.claimUses_frame (w : Work) :
    (s.claimUses w).resetPin = s.resetPin ∧
    (s.claimUses w).link = s.link ∧
    (s.claimUses w).jobs = s.jobs ∧
    (s.claimUses w).store = s.store ∧
    (s.claimUses w).arbiter = s.arbiter ∧
    (s.claimUses w).placement = s.placement ∧
    (s.claimUses w).run = s.run ∧
    (s.claimUses w).seq = s.seq ∧
    (s.claimUses w).reel = s.reel ∧
    (s.claimUses w).transport = s.transport ∧
    (s.claimUses w).pins = s.pins ∧
    (s.claimUses w).scan = s.scan ∧
    (s.claimUses w).lasers = s.lasers ∧
    (s.claimUses w).drive = s.drive ∧
    (s.claimUses w).monitor = s.monitor ∧
    (s.claimUses w).log = s.log ∧
    (s.claimUses w).freeEpoch = s.freeEpoch ∧
    (s.claimUses w).pending = s.pending :=
  by and_intros <;> rfl

/-- Releasing use counts changes the two tables only. -/
@[simp] theorem State.releaseUses_frame (w : Work) :
    (s.releaseUses w).resetPin = s.resetPin ∧
    (s.releaseUses w).link = s.link ∧
    (s.releaseUses w).jobs = s.jobs ∧
    (s.releaseUses w).store = s.store ∧
    (s.releaseUses w).arbiter = s.arbiter ∧
    (s.releaseUses w).placement = s.placement ∧
    (s.releaseUses w).run = s.run ∧
    (s.releaseUses w).seq = s.seq ∧
    (s.releaseUses w).reel = s.reel ∧
    (s.releaseUses w).transport = s.transport ∧
    (s.releaseUses w).pins = s.pins ∧
    (s.releaseUses w).scan = s.scan ∧
    (s.releaseUses w).lasers = s.lasers ∧
    (s.releaseUses w).drive = s.drive ∧
    (s.releaseUses w).monitor = s.monitor ∧
    (s.releaseUses w).log = s.log ∧
    (s.releaseUses w).freeEpoch = s.freeEpoch ∧
    (s.releaseUses w).pending = s.pending :=
  by and_intros <;> rfl

/-- The arbiter's choice changes the arbiter only. -/
@[simp] theorem State.serve_frame :
    (s.serve).resetPin = s.resetPin ∧
    (s.serve).link = s.link ∧
    (s.serve).jobs = s.jobs ∧
    (s.serve).planes = s.planes ∧
    (s.serve).store = s.store ∧
    (s.serve).curves = s.curves ∧
    (s.serve).placement = s.placement ∧
    (s.serve).run = s.run ∧
    (s.serve).seq = s.seq ∧
    (s.serve).reel = s.reel ∧
    (s.serve).transport = s.transport ∧
    (s.serve).pins = s.pins ∧
    (s.serve).scan = s.scan ∧
    (s.serve).lasers = s.lasers ∧
    (s.serve).drive = s.drive ∧
    (s.serve).monitor = s.monitor ∧
    (s.serve).log = s.log ∧
    (s.serve).freeEpoch = s.freeEpoch ∧
    (s.serve).pending = s.pending :=
  by and_intros <;> rfl

/-- Blanking changes the drive and the expected readings only. -/
@[simp] theorem State.blankDrive_frame :
    (blankDrive s).resetPin = s.resetPin ∧
    (blankDrive s).link = s.link ∧
    (blankDrive s).jobs = s.jobs ∧
    (blankDrive s).planes = s.planes ∧
    (blankDrive s).store = s.store ∧
    (blankDrive s).arbiter = s.arbiter ∧
    (blankDrive s).curves = s.curves ∧
    (blankDrive s).placement = s.placement ∧
    (blankDrive s).run = s.run ∧
    (blankDrive s).seq = s.seq ∧
    (blankDrive s).reel = s.reel ∧
    (blankDrive s).transport = s.transport ∧
    (blankDrive s).pins = s.pins ∧
    (blankDrive s).scan = s.scan ∧
    (blankDrive s).lasers = s.lasers ∧
    (blankDrive s).log = s.log ∧
    (blankDrive s).freeEpoch = s.freeEpoch ∧
    (blankDrive s).pending = s.pending :=
  by and_intros <;> rfl

/-- Laying the work down leaves run, jobs, tables and transport. -/
@[simp] theorem State.layDown_frame :
    (s.layDown).resetPin = s.resetPin ∧
    (s.layDown).link = s.link ∧
    (s.layDown).jobs = s.jobs ∧
    (s.layDown).planes = s.planes ∧
    (s.layDown).store = s.store ∧
    (s.layDown).curves = s.curves ∧
    (s.layDown).placement = s.placement ∧
    (s.layDown).run = s.run ∧
    (s.layDown).reel = s.reel ∧
    (s.layDown).transport = s.transport ∧
    (s.layDown).pins = s.pins ∧
    (s.layDown).scan = s.scan ∧
    (s.layDown).lasers = s.lasers ∧
    (s.layDown).log = s.log ∧
    (s.layDown).freeEpoch = s.freeEpoch ∧
    (s.layDown).pending = s.pending :=
  by and_intros <;> rfl

/-- A halt leaves jobs, tables, transport, scan, lasers and log (R72). -/
@[simp] theorem State.halt_frame (r : HaltReason) :
    (s.halt r).resetPin = s.resetPin ∧
    (s.halt r).jobs = s.jobs ∧
    (s.halt r).planes = s.planes ∧
    (s.halt r).store = s.store ∧
    (s.halt r).curves = s.curves ∧
    (s.halt r).placement = s.placement ∧
    (s.halt r).reel = s.reel ∧
    (s.halt r).transport = s.transport ∧
    (s.halt r).pins = s.pins ∧
    (s.halt r).scan = s.scan ∧
    (s.halt r).lasers = s.lasers ∧
    (s.halt r).log = s.log ∧
    (s.halt r).freeEpoch = s.freeEpoch ∧
    (s.halt r).pending = s.pending :=
  by and_intros <;> rfl

/-- Coming to rest leaves jobs, tables, transport, link and log (R84). -/
@[simp] theorem State.rest_frame :
    (s.rest).resetPin = s.resetPin ∧
    (s.rest).link = s.link ∧
    (s.rest).jobs = s.jobs ∧
    (s.rest).planes = s.planes ∧
    (s.rest).store = s.store ∧
    (s.rest).curves = s.curves ∧
    (s.rest).placement = s.placement ∧
    (s.rest).reel = s.reel ∧
    (s.rest).transport = s.transport ∧
    (s.rest).pins = s.pins ∧
    (s.rest).scan = s.scan ∧
    (s.rest).lasers = s.lasers ∧
    (s.rest).log = s.log ∧
    (s.rest).freeEpoch = s.freeEpoch ∧
    (s.rest).pending = s.pending :=
  by and_intros <;> rfl

/-- A pull-down that is taken changes the transport only (R123). -/
@[simp] theorem State.startPullDown_frame :
    (s.startPullDown).resetPin = s.resetPin ∧
    (s.startPullDown).link = s.link ∧
    (s.startPullDown).jobs = s.jobs ∧
    (s.startPullDown).planes = s.planes ∧
    (s.startPullDown).store = s.store ∧
    (s.startPullDown).arbiter = s.arbiter ∧
    (s.startPullDown).curves = s.curves ∧
    (s.startPullDown).placement = s.placement ∧
    (s.startPullDown).run = s.run ∧
    (s.startPullDown).seq = s.seq ∧
    (s.startPullDown).reel = s.reel ∧
    (s.startPullDown).pins = s.pins ∧
    (s.startPullDown).scan = s.scan ∧
    (s.startPullDown).lasers = s.lasers ∧
    (s.startPullDown).drive = s.drive ∧
    (s.startPullDown).monitor = s.monitor ∧
    (s.startPullDown).log = s.log ∧
    (s.startPullDown).freeEpoch = s.freeEpoch ∧
    (s.startPullDown).pending = s.pending :=
  by and_intros <;> rfl

/-- Get Status clears flags only (R187). -/
@[simp] theorem State.clearReported_frame :
    (s.clearReported).resetPin = s.resetPin ∧
    (s.clearReported).jobs = s.jobs ∧
    (s.clearReported).planes = s.planes ∧
    (s.clearReported).store = s.store ∧
    (s.clearReported).arbiter = s.arbiter ∧
    (s.clearReported).curves = s.curves ∧
    (s.clearReported).placement = s.placement ∧
    (s.clearReported).run = s.run ∧
    (s.clearReported).seq = s.seq ∧
    (s.clearReported).reel = s.reel ∧
    (s.clearReported).transport = s.transport ∧
    (s.clearReported).scan = s.scan ∧
    (s.clearReported).lasers = s.lasers ∧
    (s.clearReported).drive = s.drive ∧
    (s.clearReported).log = s.log ∧
    (s.clearReported).freeEpoch = s.freeEpoch ∧
    (s.clearReported).pending = s.pending :=
  by and_intros <;> rfl

/-! ## What the updates set -/

@[simp] theorem State.answer_current (r : Reply) :
    (s.answer r).link.current = s.link.current.map fun c => { c with stage := .replyPending r } := rfl
@[simp] theorem State.await_current :
    s.await.link.current = s.link.current.map fun c => { c with stage := .waiting } := rfl
@[simp] theorem State.accept_eq_answer (items : List Byte) : s.accept items = s.answer (.accept items) := rfl
@[simp] theorem State.layDown_seq : s.layDown.seq = Sequencer.reset := rfl
@[simp] theorem State.layDown_arbiter : s.layDown.arbiter = s.arbiter.withdrawRead := rfl
@[simp] theorem State.layDown_drive : s.layDown.drive = none := rfl
@[simp] theorem State.blankDrive_drive : (blankDrive s).drive = none := rfl
@[simp] theorem State.halt_seq (r : HaltReason) : (s.halt r).seq = Sequencer.reset := rfl
@[simp] theorem State.halt_drive (r : HaltReason) : (s.halt r).drive = none := rfl
@[simp] theorem State.halt_arbiter (r : HaltReason) : (s.halt r).arbiter = s.arbiter.withdrawRead := rfl
@[simp] theorem State.halt_run_state (r : HaltReason) : (s.halt r).run.state = .stopped := rfl
@[simp] theorem State.halt_run_pendingStop (r : HaltReason) : (s.halt r).run.pendingStop = .none := rfl
@[simp] theorem State.halt_run_halt (r : HaltReason) :
    (s.halt r).run.halt = some ⟨r, s.transport.position, s.headTag⟩ := rfl
@[simp] theorem State.rest_seq : s.rest.seq = Sequencer.reset := rfl
@[simp] theorem State.rest_drive : s.rest.drive = none := rfl
@[simp] theorem State.rest_run_state : s.rest.run.state = .paused := rfl

end Sys2Proof.Machine
end

