-- ==== Sys2Proof/Laws/Ops.lean ====
section
/-! SUPPORT. What each shared operation can change: for every operation of Machine/Ops.lean and
Machine/LinkOps.lean, one lemma that names all it leaves unchanged, so that no later proof unfolds it for
that. -/

namespace Sys2Proof.Machine

variable (s : State)

/-- A spoil leaves tables, transport, scan and lasers (R107). -/
@[simp] theorem State.spoil_frame (cause : SpoilCause) (line : Nat) (ch : Option Channel) :
    (s.spoil cause line ch).resetPin = s.resetPin ∧
    (s.spoil cause line ch).planes = s.planes ∧
    (s.spoil cause line ch).store = s.store ∧
    (s.spoil cause line ch).curves = s.curves ∧
    (s.spoil cause line ch).placement = s.placement ∧
    (s.spoil cause line ch).reel = s.reel ∧
    (s.spoil cause line ch).transport = s.transport ∧
    (s.spoil cause line ch).pins = s.pins ∧
    (s.spoil cause line ch).scan = s.scan ∧
    (s.spoil cause line ch).lasers = s.lasers ∧
    (s.spoil cause line ch).freeEpoch = s.freeEpoch ∧
    (s.spoil cause line ch).pending = s.pending := by and_intros <;> rfl

/-- What a fault does to the run leaves tables, transport, scan and lasers. -/
@[simp] theorem State.meetFault_frame (cause : SpoilCause) (ch : Option Channel) :
    (s.meetFault cause ch).resetPin = s.resetPin ∧
    (s.meetFault cause ch).planes = s.planes ∧
    (s.meetFault cause ch).store = s.store ∧
    (s.meetFault cause ch).curves = s.curves ∧
    (s.meetFault cause ch).placement = s.placement ∧
    (s.meetFault cause ch).reel = s.reel ∧
    (s.meetFault cause ch).transport = s.transport ∧
    (s.meetFault cause ch).pins = s.pins ∧
    (s.meetFault cause ch).scan = s.scan ∧
    (s.meetFault cause ch).lasers = s.lasers ∧
    (s.meetFault cause ch).freeEpoch = s.freeEpoch ∧
    (s.meetFault cause ch).pending = s.pending := by
  unfold State.meetFault
  split <;> (try split) <;> simp

/-- Setting monitor flags changes the monitor and the link only (R161). -/
@[simp] theorem State.setMonitorFlags_frame (ch : Channel) (f : MonitorFlags) :
    (s.setMonitorFlags ch f).resetPin = s.resetPin ∧
    (s.setMonitorFlags ch f).jobs = s.jobs ∧
    (s.setMonitorFlags ch f).planes = s.planes ∧
    (s.setMonitorFlags ch f).store = s.store ∧
    (s.setMonitorFlags ch f).arbiter = s.arbiter ∧
    (s.setMonitorFlags ch f).curves = s.curves ∧
    (s.setMonitorFlags ch f).placement = s.placement ∧
    (s.setMonitorFlags ch f).run = s.run ∧
    (s.setMonitorFlags ch f).seq = s.seq ∧
    (s.setMonitorFlags ch f).reel = s.reel ∧
    (s.setMonitorFlags ch f).transport = s.transport ∧
    (s.setMonitorFlags ch f).pins = s.pins ∧
    (s.setMonitorFlags ch f).scan = s.scan ∧
    (s.setMonitorFlags ch f).lasers = s.lasers ∧
    (s.setMonitorFlags ch f).drive = s.drive ∧
    (s.setMonitorFlags ch f).log = s.log ∧
    (s.setMonitorFlags ch f).freeEpoch = s.freeEpoch ∧
    (s.setMonitorFlags ch f).pending = s.pending := by
  simp only [State.setMonitorFlags]
  split <;> simp

/-- The trim update of one channel changes the monitor and the link only (R165). -/
@[simp] theorem State.trimChannel_frame (p : PowerTargets) (ch : Channel) :
    (s.trimChannel p ch).resetPin = s.resetPin ∧
    (s.trimChannel p ch).jobs = s.jobs ∧
    (s.trimChannel p ch).planes = s.planes ∧
    (s.trimChannel p ch).store = s.store ∧
    (s.trimChannel p ch).arbiter = s.arbiter ∧
    (s.trimChannel p ch).curves = s.curves ∧
    (s.trimChannel p ch).placement = s.placement ∧
    (s.trimChannel p ch).run = s.run ∧
    (s.trimChannel p ch).seq = s.seq ∧
    (s.trimChannel p ch).reel = s.reel ∧
    (s.trimChannel p ch).transport = s.transport ∧
    (s.trimChannel p ch).pins = s.pins ∧
    (s.trimChannel p ch).scan = s.scan ∧
    (s.trimChannel p ch).lasers = s.lasers ∧
    (s.trimChannel p ch).drive = s.drive ∧
    (s.trimChannel p ch).log = s.log ∧
    (s.trimChannel p ch).freeEpoch = s.freeEpoch ∧
    (s.trimChannel p ch).pending = s.pending := by
  simp only [State.trimChannel]
  split <;> (try split) <;> simp

/-- The trim update changes the monitor and the link only (R165). -/
@[simp] theorem State.trimUpdate_frame :
    (s.trimUpdate).resetPin = s.resetPin ∧
    (s.trimUpdate).jobs = s.jobs ∧
    (s.trimUpdate).planes = s.planes ∧
    (s.trimUpdate).store = s.store ∧
    (s.trimUpdate).arbiter = s.arbiter ∧
    (s.trimUpdate).curves = s.curves ∧
    (s.trimUpdate).placement = s.placement ∧
    (s.trimUpdate).run = s.run ∧
    (s.trimUpdate).seq = s.seq ∧
    (s.trimUpdate).reel = s.reel ∧
    (s.trimUpdate).transport = s.transport ∧
    (s.trimUpdate).pins = s.pins ∧
    (s.trimUpdate).scan = s.scan ∧
    (s.trimUpdate).lasers = s.lasers ∧
    (s.trimUpdate).drive = s.drive ∧
    (s.trimUpdate).log = s.log ∧
    (s.trimUpdate).freeEpoch = s.freeEpoch ∧
    (s.trimUpdate).pending = s.pending := by
  unfold State.trimUpdate
  split <;> simp

/-- Beginning a line set changes the sequencer and the arbiter only (R93). -/
@[simp] theorem State.beginSet_frame :
    (s.beginSet).resetPin = s.resetPin ∧
    (s.beginSet).link = s.link ∧
    (s.beginSet).jobs = s.jobs ∧
    (s.beginSet).planes = s.planes ∧
    (s.beginSet).store = s.store ∧
    (s.beginSet).curves = s.curves ∧
    (s.beginSet).placement = s.placement ∧
    (s.beginSet).run = s.run ∧
    (s.beginSet).reel = s.reel ∧
    (s.beginSet).transport = s.transport ∧
    (s.beginSet).pins = s.pins ∧
    (s.beginSet).scan = s.scan ∧
    (s.beginSet).lasers = s.lasers ∧
    (s.beginSet).drive = s.drive ∧
    (s.beginSet).monitor = s.monitor ∧
    (s.beginSet).log = s.log ∧
    (s.beginSet).freeEpoch = s.freeEpoch ∧
    (s.beginSet).pending = s.pending := by
  unfold State.beginSet
  split <;> simp

/-- The prefetcher changes the sequencer and the arbiter only (R93). -/
@[simp] theorem State.prefetch_frame :
    (s.prefetch).resetPin = s.resetPin ∧
    (s.prefetch).link = s.link ∧
    (s.prefetch).jobs = s.jobs ∧
    (s.prefetch).planes = s.planes ∧
    (s.prefetch).store = s.store ∧
    (s.prefetch).curves = s.curves ∧
    (s.prefetch).placement = s.placement ∧
    (s.prefetch).run = s.run ∧
    (s.prefetch).reel = s.reel ∧
    (s.prefetch).transport = s.transport ∧
    (s.prefetch).pins = s.pins ∧
    (s.prefetch).scan = s.scan ∧
    (s.prefetch).lasers = s.lasers ∧
    (s.prefetch).drive = s.drive ∧
    (s.prefetch).monitor = s.monitor ∧
    (s.prefetch).log = s.log ∧
    (s.prefetch).freeEpoch = s.freeEpoch ∧
    (s.prefetch).pending = s.pending := by
  unfold State.prefetch
  simp

/-- Entering PREPARING leaves run, link, jobs, tables and transport (R90). -/
@[simp] theorem State.enterPreparing_frame :
    (s.enterPreparing).resetPin = s.resetPin ∧
    (s.enterPreparing).link = s.link ∧
    (s.enterPreparing).jobs = s.jobs ∧
    (s.enterPreparing).planes = s.planes ∧
    (s.enterPreparing).store = s.store ∧
    (s.enterPreparing).curves = s.curves ∧
    (s.enterPreparing).placement = s.placement ∧
    (s.enterPreparing).run = s.run ∧
    (s.enterPreparing).reel = s.reel ∧
    (s.enterPreparing).transport = s.transport ∧
    (s.enterPreparing).pins = s.pins ∧
    (s.enterPreparing).scan = s.scan ∧
    (s.enterPreparing).lasers = s.lasers ∧
    (s.enterPreparing).log = s.log ∧
    (s.enterPreparing).freeEpoch = s.freeEpoch ∧
    (s.enterPreparing).pending = s.pending := by and_intros <;> rfl

/-- The sequencer's pull-down request leaves jobs, tables, scan, lasers and log (R91). -/
@[simp] theorem State.requestPullDown_frame :
    (s.requestPullDown).resetPin = s.resetPin ∧
    (s.requestPullDown).jobs = s.jobs ∧
    (s.requestPullDown).planes = s.planes ∧
    (s.requestPullDown).store = s.store ∧
    (s.requestPullDown).curves = s.curves ∧
    (s.requestPullDown).placement = s.placement ∧
    (s.requestPullDown).reel = s.reel ∧
    (s.requestPullDown).pins = s.pins ∧
    (s.requestPullDown).scan = s.scan ∧
    (s.requestPullDown).lasers = s.lasers ∧
    (s.requestPullDown).log = s.log ∧
    (s.requestPullDown).freeEpoch = s.freeEpoch ∧
    (s.requestPullDown).pending = s.pending := by
  unfold State.requestPullDown
  split <;> simp

/-- Entry to PREPARING leaves jobs, tables, scan, lasers and log (R90). -/
@[simp] theorem State.prepare_frame :
    (s.prepare).resetPin = s.resetPin ∧
    (s.prepare).jobs = s.jobs ∧
    (s.prepare).planes = s.planes ∧
    (s.prepare).store = s.store ∧
    (s.prepare).curves = s.curves ∧
    (s.prepare).placement = s.placement ∧
    (s.prepare).reel = s.reel ∧
    (s.prepare).pins = s.pins ∧
    (s.prepare).scan = s.scan ∧
    (s.prepare).lasers = s.lasers ∧
    (s.prepare).log = s.log ∧
    (s.prepare).freeEpoch = s.freeEpoch ∧
    (s.prepare).pending = s.pending := by
  simp only [State.prepare]
  split
  · simp
  · split <;> simp

/-- BETWEEN in RUNNING leaves jobs, tables, scan, lasers and log (R89). -/
@[simp] theorem State.goOn_frame :
    (s.goOn).resetPin = s.resetPin ∧
    (s.goOn).jobs = s.jobs ∧
    (s.goOn).planes = s.planes ∧
    (s.goOn).store = s.store ∧
    (s.goOn).curves = s.curves ∧
    (s.goOn).placement = s.placement ∧
    (s.goOn).reel = s.reel ∧
    (s.goOn).pins = s.pins ∧
    (s.goOn).scan = s.scan ∧
    (s.goOn).lasers = s.lasers ∧
    (s.goOn).log = s.log ∧
    (s.goOn).freeEpoch = s.freeEpoch ∧
    (s.goOn).pending = s.pending := by
  unfold State.goOn
  split <;> (try split) <;> (try split) <;> simp

/-- The release of planes changes the plane tables only (R17). -/
@[simp] theorem State.releasePlanes_frame (w : Work) :
    (s.releasePlanes w).resetPin = s.resetPin ∧
    (s.releasePlanes w).link = s.link ∧
    (s.releasePlanes w).jobs = s.jobs ∧
    (s.releasePlanes w).store = s.store ∧
    (s.releasePlanes w).arbiter = s.arbiter ∧
    (s.releasePlanes w).curves = s.curves ∧
    (s.releasePlanes w).placement = s.placement ∧
    (s.releasePlanes w).run = s.run ∧
    (s.releasePlanes w).seq = s.seq ∧
    (s.releasePlanes w).reel = s.reel ∧
    (s.releasePlanes w).transport = s.transport ∧
    (s.releasePlanes w).pins = s.pins ∧
    (s.releasePlanes w).scan = s.scan ∧
    (s.releasePlanes w).lasers = s.lasers ∧
    (s.releasePlanes w).drive = s.drive ∧
    (s.releasePlanes w).monitor = s.monitor ∧
    (s.releasePlanes w).log = s.log ∧
    (s.releasePlanes w).freeEpoch = s.freeEpoch ∧
    (s.releasePlanes w).pending = s.pending := by
  unfold State.releasePlanes
  split <;> simp

/-- The end of a job changes the Job Store and the use counts only (R16). -/
@[simp] theorem State.endJob_frame (o : JobOutcome) (j : Job) :
    (s.endJob o j).resetPin = s.resetPin ∧
    (s.endJob o j).link = s.link ∧
    (s.endJob o j).store = s.store ∧
    (s.endJob o j).arbiter = s.arbiter ∧
    (s.endJob o j).placement = s.placement ∧
    (s.endJob o j).run = s.run ∧
    (s.endJob o j).seq = s.seq ∧
    (s.endJob o j).reel = s.reel ∧
    (s.endJob o j).transport = s.transport ∧
    (s.endJob o j).pins = s.pins ∧
    (s.endJob o j).scan = s.scan ∧
    (s.endJob o j).lasers = s.lasers ∧
    (s.endJob o j).drive = s.drive ∧
    (s.endJob o j).monitor = s.monitor ∧
    (s.endJob o j).log = s.log ∧
    (s.endJob o j).freeEpoch = s.freeEpoch ∧
    (s.endJob o j).pending = s.pending := by
  simp only [State.endJob]
  split <;> simp

/-- The completion of the head job changes the Job Store and the tables only (R17). -/
@[simp] theorem State.completeHead_frame :
    (s.completeHead).resetPin = s.resetPin ∧
    (s.completeHead).link = s.link ∧
    (s.completeHead).store = s.store ∧
    (s.completeHead).arbiter = s.arbiter ∧
    (s.completeHead).placement = s.placement ∧
    (s.completeHead).run = s.run ∧
    (s.completeHead).seq = s.seq ∧
    (s.completeHead).reel = s.reel ∧
    (s.completeHead).transport = s.transport ∧
    (s.completeHead).pins = s.pins ∧
    (s.completeHead).scan = s.scan ∧
    (s.completeHead).lasers = s.lasers ∧
    (s.completeHead).drive = s.drive ∧
    (s.completeHead).monitor = s.monitor ∧
    (s.completeHead).log = s.log ∧
    (s.completeHead).freeEpoch = s.freeEpoch ∧
    (s.completeHead).pending = s.pending := by
  unfold State.completeHead
  split <;> (try split) <;> simp

/-- Frame end leaves store, reel, scan, lasers and log (R105). -/
@[simp] theorem State.frameEnd_frame :
    (s.frameEnd).resetPin = s.resetPin ∧
    (s.frameEnd).store = s.store ∧
    (s.frameEnd).placement = s.placement ∧
    (s.frameEnd).reel = s.reel ∧
    (s.frameEnd).pins = s.pins ∧
    (s.frameEnd).scan = s.scan ∧
    (s.frameEnd).lasers = s.lasers ∧
    (s.frameEnd).log = s.log ∧
    (s.frameEnd).freeEpoch = s.freeEpoch ∧
    (s.frameEnd).pending = s.pending := by
  simp only [State.frameEnd]
  split <;> (try split) <;> simp

/-- The passing of a BLANK frame changes sequencer, gate and head job (R98). -/
@[simp] theorem State.countBlank_frame :
    (s.countBlank).resetPin = s.resetPin ∧
    (s.countBlank).link = s.link ∧
    (s.countBlank).planes = s.planes ∧
    (s.countBlank).store = s.store ∧
    (s.countBlank).arbiter = s.arbiter ∧
    (s.countBlank).curves = s.curves ∧
    (s.countBlank).placement = s.placement ∧
    (s.countBlank).run = s.run ∧
    (s.countBlank).reel = s.reel ∧
    (s.countBlank).pins = s.pins ∧
    (s.countBlank).scan = s.scan ∧
    (s.countBlank).lasers = s.lasers ∧
    (s.countBlank).drive = s.drive ∧
    (s.countBlank).monitor = s.monitor ∧
    (s.countBlank).log = s.log ∧
    (s.countBlank).freeEpoch = s.freeEpoch ∧
    (s.countBlank).pending = s.pending := by and_intros <;> rfl

/-- The passing of a BLANK frame leaves store, reel, scan, lasers and log (R98). -/
@[simp] theorem State.passBlank_frame :
    (s.passBlank).resetPin = s.resetPin ∧
    (s.passBlank).store = s.store ∧
    (s.passBlank).placement = s.placement ∧
    (s.passBlank).reel = s.reel ∧
    (s.passBlank).pins = s.pins ∧
    (s.passBlank).scan = s.scan ∧
    (s.passBlank).lasers = s.lasers ∧
    (s.passBlank).log = s.log ∧
    (s.passBlank).freeEpoch = s.freeEpoch ∧
    (s.passBlank).pending = s.pending := by
  unfold State.passBlank
  split <;> (try split) <;> simp

/-- BETWEEN leaves store, reel, scan, lasers and log. -/
@[simp] theorem State.between_frame :
    (s.between).resetPin = s.resetPin ∧
    (s.between).store = s.store ∧
    (s.between).placement = s.placement ∧
    (s.between).reel = s.reel ∧
    (s.between).pins = s.pins ∧
    (s.between).scan = s.scan ∧
    (s.between).lasers = s.lasers ∧
    (s.between).log = s.log ∧
    (s.between).freeEpoch = s.freeEpoch ∧
    (s.between).pending = s.pending := by
  unfold State.between
  simp

/-- Counting a frame changes sequencer, drive, expected readings and head job (R104). -/
@[simp] theorem State.countFrame_frame :
    (s.countFrame).resetPin = s.resetPin ∧
    (s.countFrame).link = s.link ∧
    (s.countFrame).planes = s.planes ∧
    (s.countFrame).store = s.store ∧
    (s.countFrame).arbiter = s.arbiter ∧
    (s.countFrame).curves = s.curves ∧
    (s.countFrame).placement = s.placement ∧
    (s.countFrame).run = s.run ∧
    (s.countFrame).reel = s.reel ∧
    (s.countFrame).transport = s.transport ∧
    (s.countFrame).pins = s.pins ∧
    (s.countFrame).scan = s.scan ∧
    (s.countFrame).lasers = s.lasers ∧
    (s.countFrame).log = s.log ∧
    (s.countFrame).freeEpoch = s.freeEpoch ∧
    (s.countFrame).pending = s.pending := by and_intros <;> rfl

/-- Taking the frame means changes the monitor only (R164). -/
@[simp] theorem State.takeMeans_frame :
    (s.takeMeans).resetPin = s.resetPin ∧
    (s.takeMeans).link = s.link ∧
    (s.takeMeans).jobs = s.jobs ∧
    (s.takeMeans).planes = s.planes ∧
    (s.takeMeans).store = s.store ∧
    (s.takeMeans).arbiter = s.arbiter ∧
    (s.takeMeans).curves = s.curves ∧
    (s.takeMeans).placement = s.placement ∧
    (s.takeMeans).run = s.run ∧
    (s.takeMeans).seq = s.seq ∧
    (s.takeMeans).reel = s.reel ∧
    (s.takeMeans).transport = s.transport ∧
    (s.takeMeans).pins = s.pins ∧
    (s.takeMeans).scan = s.scan ∧
    (s.takeMeans).lasers = s.lasers ∧
    (s.takeMeans).drive = s.drive ∧
    (s.takeMeans).log = s.log ∧
    (s.takeMeans).freeEpoch = s.freeEpoch ∧
    (s.takeMeans).pending = s.pending := by and_intros <;> rfl

/-- Logging a suspect frame changes head job, log and monitor only (R110). -/
@[simp] theorem State.logSuspect_frame (ch : Channel) :
    (s.logSuspect ch).resetPin = s.resetPin ∧
    (s.logSuspect ch).link = s.link ∧
    (s.logSuspect ch).planes = s.planes ∧
    (s.logSuspect ch).store = s.store ∧
    (s.logSuspect ch).arbiter = s.arbiter ∧
    (s.logSuspect ch).curves = s.curves ∧
    (s.logSuspect ch).placement = s.placement ∧
    (s.logSuspect ch).run = s.run ∧
    (s.logSuspect ch).seq = s.seq ∧
    (s.logSuspect ch).reel = s.reel ∧
    (s.logSuspect ch).transport = s.transport ∧
    (s.logSuspect ch).pins = s.pins ∧
    (s.logSuspect ch).scan = s.scan ∧
    (s.logSuspect ch).lasers = s.lasers ∧
    (s.logSuspect ch).drive = s.drive ∧
    (s.logSuspect ch).freeEpoch = s.freeEpoch ∧
    (s.logSuspect ch).pending = s.pending := by and_intros <;> rfl

/-- The end of a suspect frame leaves transport, scan and lasers (R110). -/
@[simp] theorem State.suspectEnd_frame (ch : Channel) :
    (s.suspectEnd ch).resetPin = s.resetPin ∧
    (s.suspectEnd ch).store = s.store ∧
    (s.suspectEnd ch).placement = s.placement ∧
    (s.suspectEnd ch).reel = s.reel ∧
    (s.suspectEnd ch).transport = s.transport ∧
    (s.suspectEnd ch).pins = s.pins ∧
    (s.suspectEnd ch).scan = s.scan ∧
    (s.suspectEnd ch).lasers = s.lasers ∧
    (s.suspectEnd ch).freeEpoch = s.freeEpoch ∧
    (s.suspectEnd ch).pending = s.pending := by
  unfold State.suspectEnd
  simp

/-- A clean end leaves store, reel, scan and lasers (R104). -/
@[simp] theorem State.cleanEnd_frame :
    (s.cleanEnd).resetPin = s.resetPin ∧
    (s.cleanEnd).store = s.store ∧
    (s.cleanEnd).placement = s.placement ∧
    (s.cleanEnd).reel = s.reel ∧
    (s.cleanEnd).pins = s.pins ∧
    (s.cleanEnd).scan = s.scan ∧
    (s.cleanEnd).lasers = s.lasers ∧
    (s.cleanEnd).freeEpoch = s.freeEpoch ∧
    (s.cleanEnd).pending = s.pending := by
  unfold State.cleanEnd
  split <;> simp

/-- The start of EXPOSING leaves run, link, tables, scan and lasers (R99). -/
@[simp] theorem State.beginExposing_frame :
    (s.beginExposing).resetPin = s.resetPin ∧
    (s.beginExposing).link = s.link ∧
    (s.beginExposing).planes = s.planes ∧
    (s.beginExposing).store = s.store ∧
    (s.beginExposing).arbiter = s.arbiter ∧
    (s.beginExposing).curves = s.curves ∧
    (s.beginExposing).placement = s.placement ∧
    (s.beginExposing).run = s.run ∧
    (s.beginExposing).reel = s.reel ∧
    (s.beginExposing).pins = s.pins ∧
    (s.beginExposing).scan = s.scan ∧
    (s.beginExposing).lasers = s.lasers ∧
    (s.beginExposing).drive = s.drive ∧
    (s.beginExposing).log = s.log ∧
    (s.beginExposing).freeEpoch = s.freeEpoch ∧
    (s.beginExposing).pending = s.pending := by and_intros <;> rfl

/-- Laying a line out changes drive, sequencer and expected readings only. -/
@[simp] theorem layLine_frame (line facet : Nat) (reel : Reel) (work : Work) (rows : List Row) :
    (layLine line facet reel work rows s).resetPin = s.resetPin ∧
    (layLine line facet reel work rows s).link = s.link ∧
    (layLine line facet reel work rows s).jobs = s.jobs ∧
    (layLine line facet reel work rows s).planes = s.planes ∧
    (layLine line facet reel work rows s).store = s.store ∧
    (layLine line facet reel work rows s).arbiter = s.arbiter ∧
    (layLine line facet reel work rows s).curves = s.curves ∧
    (layLine line facet reel work rows s).placement = s.placement ∧
    (layLine line facet reel work rows s).run = s.run ∧
    (layLine line facet reel work rows s).reel = s.reel ∧
    (layLine line facet reel work rows s).transport = s.transport ∧
    (layLine line facet reel work rows s).pins = s.pins ∧
    (layLine line facet reel work rows s).scan = s.scan ∧
    (layLine line facet reel work rows s).lasers = s.lasers ∧
    (layLine line facet reel work rows s).log = s.log ∧
    (layLine line facet reel work rows s).freeEpoch = s.freeEpoch ∧
    (layLine line facet reel work rows s).pending = s.pending := by and_intros <;> rfl

/-- Cutting a line short changes the saturation mark only. -/
@[simp] theorem cutLine_frame (elapsed : Nat) :
    (cutLine elapsed s).resetPin = s.resetPin ∧
    (cutLine elapsed s).link = s.link ∧
    (cutLine elapsed s).jobs = s.jobs ∧
    (cutLine elapsed s).planes = s.planes ∧
    (cutLine elapsed s).store = s.store ∧
    (cutLine elapsed s).arbiter = s.arbiter ∧
    (cutLine elapsed s).curves = s.curves ∧
    (cutLine elapsed s).placement = s.placement ∧
    (cutLine elapsed s).run = s.run ∧
    (cutLine elapsed s).reel = s.reel ∧
    (cutLine elapsed s).transport = s.transport ∧
    (cutLine elapsed s).pins = s.pins ∧
    (cutLine elapsed s).scan = s.scan ∧
    (cutLine elapsed s).lasers = s.lasers ∧
    (cutLine elapsed s).drive = s.drive ∧
    (cutLine elapsed s).monitor = s.monitor ∧
    (cutLine elapsed s).log = s.log ∧
    (cutLine elapsed s).freeEpoch = s.freeEpoch ∧
    (cutLine elapsed s).pending = s.pending := by
  unfold cutLine
  split <;> simp

/-- A line leaves tables, transport, scan and lasers (R101). -/
@[simp] theorem State.driveLine_frame (line facet : Nat) :
    (s.driveLine line facet).resetPin = s.resetPin ∧
    (s.driveLine line facet).planes = s.planes ∧
    (s.driveLine line facet).store = s.store ∧
    (s.driveLine line facet).curves = s.curves ∧
    (s.driveLine line facet).placement = s.placement ∧
    (s.driveLine line facet).reel = s.reel ∧
    (s.driveLine line facet).transport = s.transport ∧
    (s.driveLine line facet).pins = s.pins ∧
    (s.driveLine line facet).scan = s.scan ∧
    (s.driveLine line facet).lasers = s.lasers ∧
    (s.driveLine line facet).freeEpoch = s.freeEpoch ∧
    (s.driveLine line facet).pending = s.pending := by
  unfold State.driveLine
  split <;> (try split) <;> (try split) <;> simp

/-- A facet sync leaves store, reel, scan and lasers. -/
@[simp] theorem State.facetSync_frame (facet elapsed : Nat) :
    (s.facetSync facet elapsed).resetPin = s.resetPin ∧
    (s.facetSync facet elapsed).store = s.store ∧
    (s.facetSync facet elapsed).placement = s.placement ∧
    (s.facetSync facet elapsed).reel = s.reel ∧
    (s.facetSync facet elapsed).pins = s.pins ∧
    (s.facetSync facet elapsed).scan = s.scan ∧
    (s.facetSync facet elapsed).lasers = s.lasers ∧
    (s.facetSync facet elapsed).freeEpoch = s.freeEpoch ∧
    (s.facetSync facet elapsed).pending = s.pending := by
  simp only [State.facetSync]
  split <;> (try split) <;> simp

/-- The loss of the lock leaves tables, transport and lasers (R148). -/
@[simp] theorem State.loseLock_frame (cause : LossCause) :
    (s.loseLock cause).resetPin = s.resetPin ∧
    (s.loseLock cause).planes = s.planes ∧
    (s.loseLock cause).store = s.store ∧
    (s.loseLock cause).curves = s.curves ∧
    (s.loseLock cause).placement = s.placement ∧
    (s.loseLock cause).reel = s.reel ∧
    (s.loseLock cause).transport = s.transport ∧
    (s.loseLock cause).pins = s.pins ∧
    (s.loseLock cause).lasers = s.lasers ∧
    (s.loseLock cause).freeEpoch = s.freeEpoch ∧
    (s.loseLock cause).pending = s.pending := by
  unfold State.loseLock
  simp

/-- The end of a series changes the link only (R131). -/
@[simp] theorem State.endSeries_frame (x : Option Series) :
    (s.endSeries x).resetPin = s.resetPin ∧
    (s.endSeries x).jobs = s.jobs ∧
    (s.endSeries x).planes = s.planes ∧
    (s.endSeries x).store = s.store ∧
    (s.endSeries x).arbiter = s.arbiter ∧
    (s.endSeries x).curves = s.curves ∧
    (s.endSeries x).placement = s.placement ∧
    (s.endSeries x).run = s.run ∧
    (s.endSeries x).seq = s.seq ∧
    (s.endSeries x).reel = s.reel ∧
    (s.endSeries x).transport = s.transport ∧
    (s.endSeries x).pins = s.pins ∧
    (s.endSeries x).scan = s.scan ∧
    (s.endSeries x).lasers = s.lasers ∧
    (s.endSeries x).drive = s.drive ∧
    (s.endSeries x).monitor = s.monitor ∧
    (s.endSeries x).log = s.log ∧
    (s.endSeries x).freeEpoch = s.freeEpoch ∧
    (s.endSeries x).pending = s.pending := by
  unfold State.endSeries
  split <;> simp

/-- Entry into FAULT leaves tables, scan and lasers (R122). -/
@[simp] theorem State.enterTransportFault_frame (cause : TransportCause) :
    (s.enterTransportFault cause).resetPin = s.resetPin ∧
    (s.enterTransportFault cause).planes = s.planes ∧
    (s.enterTransportFault cause).store = s.store ∧
    (s.enterTransportFault cause).curves = s.curves ∧
    (s.enterTransportFault cause).placement = s.placement ∧
    (s.enterTransportFault cause).reel = s.reel ∧
    (s.enterTransportFault cause).pins = s.pins ∧
    (s.enterTransportFault cause).scan = s.scan ∧
    (s.enterTransportFault cause).lasers = s.lasers ∧
    (s.enterTransportFault cause).freeEpoch = s.freeEpoch ∧
    (s.enterTransportFault cause).pending = s.pending := by
  unfold State.enterTransportFault
  simp

/-- The arrival of a message changes the link only. -/
@[simp] theorem State.arrive_frame (m : Message) :
    (s.arrive m).resetPin = s.resetPin ∧
    (s.arrive m).jobs = s.jobs ∧
    (s.arrive m).planes = s.planes ∧
    (s.arrive m).store = s.store ∧
    (s.arrive m).arbiter = s.arbiter ∧
    (s.arrive m).curves = s.curves ∧
    (s.arrive m).placement = s.placement ∧
    (s.arrive m).run = s.run ∧
    (s.arrive m).seq = s.seq ∧
    (s.arrive m).reel = s.reel ∧
    (s.arrive m).transport = s.transport ∧
    (s.arrive m).pins = s.pins ∧
    (s.arrive m).scan = s.scan ∧
    (s.arrive m).lasers = s.lasers ∧
    (s.arrive m).drive = s.drive ∧
    (s.arrive m).monitor = s.monitor ∧
    (s.arrive m).log = s.log ∧
    (s.arrive m).freeEpoch = s.freeEpoch ∧
    (s.arrive m).pending = s.pending := by
  unfold State.arrive
  split <;> (try split) <;> simp

/-- A byte received changes the link only. -/
@[simp] theorem State.receiveByte_frame (b : Byte) :
    (s.receiveByte b).resetPin = s.resetPin ∧
    (s.receiveByte b).jobs = s.jobs ∧
    (s.receiveByte b).planes = s.planes ∧
    (s.receiveByte b).store = s.store ∧
    (s.receiveByte b).arbiter = s.arbiter ∧
    (s.receiveByte b).curves = s.curves ∧
    (s.receiveByte b).placement = s.placement ∧
    (s.receiveByte b).run = s.run ∧
    (s.receiveByte b).seq = s.seq ∧
    (s.receiveByte b).reel = s.reel ∧
    (s.receiveByte b).transport = s.transport ∧
    (s.receiveByte b).pins = s.pins ∧
    (s.receiveByte b).scan = s.scan ∧
    (s.receiveByte b).lasers = s.lasers ∧
    (s.receiveByte b).drive = s.drive ∧
    (s.receiveByte b).monitor = s.monitor ∧
    (s.receiveByte b).log = s.log ∧
    (s.receiveByte b).freeEpoch = s.freeEpoch ∧
    (s.receiveByte b).pending = s.pending := by
  unfold State.receiveByte
  split <;> (try simp only []) <;> (try split) <;> (try split) <;> simp

/-- A series' next pull-down changes transport and link only (R130). -/
@[simp] theorem State.nextPullDown_frame (x : Series) :
    (s.nextPullDown x).resetPin = s.resetPin ∧
    (s.nextPullDown x).jobs = s.jobs ∧
    (s.nextPullDown x).planes = s.planes ∧
    (s.nextPullDown x).store = s.store ∧
    (s.nextPullDown x).arbiter = s.arbiter ∧
    (s.nextPullDown x).curves = s.curves ∧
    (s.nextPullDown x).placement = s.placement ∧
    (s.nextPullDown x).run = s.run ∧
    (s.nextPullDown x).seq = s.seq ∧
    (s.nextPullDown x).reel = s.reel ∧
    (s.nextPullDown x).pins = s.pins ∧
    (s.nextPullDown x).scan = s.scan ∧
    (s.nextPullDown x).lasers = s.lasers ∧
    (s.nextPullDown x).drive = s.drive ∧
    (s.nextPullDown x).monitor = s.monitor ∧
    (s.nextPullDown x).log = s.log ∧
    (s.nextPullDown x).freeEpoch = s.freeEpoch ∧
    (s.nextPullDown x).pending = s.pending := by
  unfold State.nextPullDown
  split <;> simp

/-- A series going on or ending changes transport and link only (R130). -/
@[simp] theorem State.seriesRegistered_frame :
    (s.seriesRegistered).resetPin = s.resetPin ∧
    (s.seriesRegistered).jobs = s.jobs ∧
    (s.seriesRegistered).planes = s.planes ∧
    (s.seriesRegistered).store = s.store ∧
    (s.seriesRegistered).arbiter = s.arbiter ∧
    (s.seriesRegistered).curves = s.curves ∧
    (s.seriesRegistered).placement = s.placement ∧
    (s.seriesRegistered).run = s.run ∧
    (s.seriesRegistered).seq = s.seq ∧
    (s.seriesRegistered).reel = s.reel ∧
    (s.seriesRegistered).pins = s.pins ∧
    (s.seriesRegistered).scan = s.scan ∧
    (s.seriesRegistered).lasers = s.lasers ∧
    (s.seriesRegistered).drive = s.drive ∧
    (s.seriesRegistered).monitor = s.monitor ∧
    (s.seriesRegistered).log = s.log ∧
    (s.seriesRegistered).freeEpoch = s.freeEpoch ∧
    (s.seriesRegistered).pending = s.pending := by
  unfold State.seriesRegistered
  split <;> (try split) <;> simp

/-- A reading changes the monitor and the link only (R159). -/
@[simp] theorem State.takeReading_frame (p : PowerTargets) (ch : Channel) (o : Option Nat) :
    (s.takeReading p ch o).resetPin = s.resetPin ∧
    (s.takeReading p ch o).jobs = s.jobs ∧
    (s.takeReading p ch o).planes = s.planes ∧
    (s.takeReading p ch o).store = s.store ∧
    (s.takeReading p ch o).arbiter = s.arbiter ∧
    (s.takeReading p ch o).curves = s.curves ∧
    (s.takeReading p ch o).placement = s.placement ∧
    (s.takeReading p ch o).run = s.run ∧
    (s.takeReading p ch o).seq = s.seq ∧
    (s.takeReading p ch o).reel = s.reel ∧
    (s.takeReading p ch o).transport = s.transport ∧
    (s.takeReading p ch o).pins = s.pins ∧
    (s.takeReading p ch o).scan = s.scan ∧
    (s.takeReading p ch o).lasers = s.lasers ∧
    (s.takeReading p ch o).drive = s.drive ∧
    (s.takeReading p ch o).log = s.log ∧
    (s.takeReading p ch o).freeEpoch = s.freeEpoch ∧
    (s.takeReading p ch o).pending = s.pending := by
  simp only [State.takeReading]
  split <;> (try split) <;> simp

/-- Readings change the monitor and the link only (R159). -/
@[simp] theorem State.takeReadings_frame (p : PowerTargets) (o : Rgb (Option Nat)) :
    (s.takeReadings p o).resetPin = s.resetPin ∧
    (s.takeReadings p o).jobs = s.jobs ∧
    (s.takeReadings p o).planes = s.planes ∧
    (s.takeReadings p o).store = s.store ∧
    (s.takeReadings p o).arbiter = s.arbiter ∧
    (s.takeReadings p o).curves = s.curves ∧
    (s.takeReadings p o).placement = s.placement ∧
    (s.takeReadings p o).run = s.run ∧
    (s.takeReadings p o).seq = s.seq ∧
    (s.takeReadings p o).reel = s.reel ∧
    (s.takeReadings p o).transport = s.transport ∧
    (s.takeReadings p o).pins = s.pins ∧
    (s.takeReadings p o).scan = s.scan ∧
    (s.takeReadings p o).lasers = s.lasers ∧
    (s.takeReadings p o).drive = s.drive ∧
    (s.takeReadings p o).log = s.log ∧
    (s.takeReadings p o).freeEpoch = s.freeEpoch ∧
    (s.takeReadings p o).pending = s.pending := by
  unfold State.takeReadings
  simp

/-- A clock loss leaves jobs, tables, transport, scan, lasers and log (R160). -/
@[simp] theorem State.meetClockLoss_frame (ch : Channel) :
    (s.meetClockLoss ch).resetPin = s.resetPin ∧
    (s.meetClockLoss ch).jobs = s.jobs ∧
    (s.meetClockLoss ch).planes = s.planes ∧
    (s.meetClockLoss ch).store = s.store ∧
    (s.meetClockLoss ch).curves = s.curves ∧
    (s.meetClockLoss ch).placement = s.placement ∧
    (s.meetClockLoss ch).reel = s.reel ∧
    (s.meetClockLoss ch).transport = s.transport ∧
    (s.meetClockLoss ch).pins = s.pins ∧
    (s.meetClockLoss ch).scan = s.scan ∧
    (s.meetClockLoss ch).lasers = s.lasers ∧
    (s.meetClockLoss ch).log = s.log ∧
    (s.meetClockLoss ch).freeEpoch = s.freeEpoch ∧
    (s.meetClockLoss ch).pending = s.pending := by
  unfold State.meetClockLoss
  split <;> simp

/-- A completed write changes the plane's fill mark and the link only (R38). -/
@[simp] theorem State.noteWritten_frame (x : Selector) :
    (s.noteWritten x).resetPin = s.resetPin ∧
    (s.noteWritten x).jobs = s.jobs ∧
    (s.noteWritten x).store = s.store ∧
    (s.noteWritten x).arbiter = s.arbiter ∧
    (s.noteWritten x).curves = s.curves ∧
    (s.noteWritten x).placement = s.placement ∧
    (s.noteWritten x).run = s.run ∧
    (s.noteWritten x).seq = s.seq ∧
    (s.noteWritten x).reel = s.reel ∧
    (s.noteWritten x).transport = s.transport ∧
    (s.noteWritten x).pins = s.pins ∧
    (s.noteWritten x).scan = s.scan ∧
    (s.noteWritten x).lasers = s.lasers ∧
    (s.noteWritten x).drive = s.drive ∧
    (s.noteWritten x).monitor = s.monitor ∧
    (s.noteWritten x).log = s.log ∧
    (s.noteWritten x).freeEpoch = s.freeEpoch ∧
    (s.noteWritten x).pending = s.pending := by
  unfold State.noteWritten
  split <;> simp

/-- A row read changes sequencer and arbiter only (R88). -/
@[simp] theorem State.addRow_frame (words : List Half) :
    (s.addRow words).resetPin = s.resetPin ∧
    (s.addRow words).link = s.link ∧
    (s.addRow words).jobs = s.jobs ∧
    (s.addRow words).planes = s.planes ∧
    (s.addRow words).store = s.store ∧
    (s.addRow words).curves = s.curves ∧
    (s.addRow words).placement = s.placement ∧
    (s.addRow words).run = s.run ∧
    (s.addRow words).reel = s.reel ∧
    (s.addRow words).transport = s.transport ∧
    (s.addRow words).pins = s.pins ∧
    (s.addRow words).scan = s.scan ∧
    (s.addRow words).lasers = s.lasers ∧
    (s.addRow words).drive = s.drive ∧
    (s.addRow words).monitor = s.monitor ∧
    (s.addRow words).log = s.log ∧
    (s.addRow words).freeEpoch = s.freeEpoch ∧
    (s.addRow words).pending = s.pending := by
  unfold State.addRow
  split <;> (try split) <;> (try split) <;> simp

/-- The run at a Soft Reset: tables, transport, scan and lasers are left (R86). -/
@[simp] theorem State.softResetRun_frame :
    (s.softResetRun).resetPin = s.resetPin ∧
    (s.softResetRun).planes = s.planes ∧
    (s.softResetRun).store = s.store ∧
    (s.softResetRun).curves = s.curves ∧
    (s.softResetRun).placement = s.placement ∧
    (s.softResetRun).reel = s.reel ∧
    (s.softResetRun).transport = s.transport ∧
    (s.softResetRun).pins = s.pins ∧
    (s.softResetRun).scan = s.scan ∧
    (s.softResetRun).lasers = s.lasers ∧
    (s.softResetRun).freeEpoch = s.freeEpoch ∧
    (s.softResetRun).pending = s.pending := by
  unfold State.softResetRun
  split <;> simp

/-- Soft Reset keeps frame store, placement, reel, pins and scan (R189). -/
@[simp] theorem State.softReset_frame :
    (s.softReset).resetPin = s.resetPin ∧
    (s.softReset).store = s.store ∧
    (s.softReset).placement = s.placement ∧
    (s.softReset).reel = s.reel ∧
    (s.softReset).pins = s.pins ∧
    (s.softReset).scan = s.scan ∧
    (s.softReset).freeEpoch = s.freeEpoch ∧
    (s.softReset).pending = s.pending := by
  unfold State.softReset State.softResetLink State.softResetBlocks State.dropJobs
  simp

/-- The transmit arbiter changes the link only. -/
@[simp] theorem State.startTransmission_frame (hrdy : Bool) :
    (s.startTransmission hrdy).resetPin = s.resetPin ∧
    (s.startTransmission hrdy).jobs = s.jobs ∧
    (s.startTransmission hrdy).planes = s.planes ∧
    (s.startTransmission hrdy).store = s.store ∧
    (s.startTransmission hrdy).arbiter = s.arbiter ∧
    (s.startTransmission hrdy).curves = s.curves ∧
    (s.startTransmission hrdy).placement = s.placement ∧
    (s.startTransmission hrdy).run = s.run ∧
    (s.startTransmission hrdy).seq = s.seq ∧
    (s.startTransmission hrdy).reel = s.reel ∧
    (s.startTransmission hrdy).transport = s.transport ∧
    (s.startTransmission hrdy).pins = s.pins ∧
    (s.startTransmission hrdy).scan = s.scan ∧
    (s.startTransmission hrdy).lasers = s.lasers ∧
    (s.startTransmission hrdy).drive = s.drive ∧
    (s.startTransmission hrdy).monitor = s.monitor ∧
    (s.startTransmission hrdy).log = s.log ∧
    (s.startTransmission hrdy).freeEpoch = s.freeEpoch ∧
    (s.startTransmission hrdy).pending = s.pending := by
  simp only [State.startTransmission, State.choose]
  split <;> (try split) <;> simp

/-- The flushing of the job queue changes the Job Store and the use counts only (R19). -/
theorem State.flush_eq :
    s.flush = { s with jobs := s.flush.jobs, planes := s.flush.planes, curves := s.flush.curves } := by
  have h : ∀ (l : List Job) (u : State), l.foldl (fun (t : State) (j : Job) => t.endJob .flushed j) u =
      { u with
        jobs := (l.foldl (fun (t : State) (j : Job) => t.endJob .flushed j) u).jobs
        planes := (l.foldl (fun (t : State) (j : Job) => t.endJob .flushed j) u).planes
        curves := (l.foldl (fun (t : State) (j : Job) => t.endJob .flushed j) u).curves } := by
    intro l
    induction l with
    | nil => intro u; rfl
    | cons j l ih =>
      intro u
      rw [List.foldl_cons, ih]
      simp
  exact h s.jobs.live s

/-- Bytes received change the link only. -/
theorem State.receiveBytes_frame (bytes : List Byte) :
    ∃ l, s.receiveBytes bytes = { s with link := l } := by
  induction bytes generalizing s with
  | nil => exact ⟨s.link, rfl⟩
  | cons b bs ih =>
    obtain ⟨l, hl⟩ := ih (s.receiveByte b)
    refine ⟨l, ?_⟩
    have : s.receiveBytes (b :: bs) = (s.receiveByte b).receiveBytes bs := rfl
    rw [this, hl]
    have h := State.receiveByte_frame s b
    cases hs : s.receiveByte b
    simp_all

end Sys2Proof.Machine
end

