-- ==== Sys2Proof/Laws/Halts.lean ====
section
/-! SUPPORT. What a halt, a spoil and a fault of the recorder do, once for all the commands that bring them
about, in the words of Sys2Proof/Safety.lean. -/

namespace Sys2Proof.Machine

variable {s : State}

/-- R43: what a halt does to the prefetcher's claim. -/
theorem withdrawRead_withdrawn (a : Arbiter) : ClaimWithdrawn a a.withdrawRead := by
  obtain ⟨access, read, write, last⟩ := a
  rcases access with _ | ⟨c, d⟩ | c <;> constructor <;> simp [Arbiter.withdrawRead]

/-- R185: raising a class leaves the flags of the others, and a message being sent that is no notice of the class. -/
theorem raise_other (c : FlagClass) (l : Link) :
    (∀ c', c' ≠ c → (l.raise c).notices.get c' = l.notices.get c') ∧
      ((∀ again msg, l.transmitter ≠ some ⟨.flag c again, msg⟩) → (l.raise c).transmitter = l.transmitter) := by
  unfold Link.raise
  split
  · refine ⟨fun c' h => ?_, fun h => ?_⟩
    · cases c <;> cases c' <;> first | rfl | exact absurd rfl h
    · rcases ht : l.transmitter with _ | ⟨x | ⟨c', again⟩ | x | _, msg⟩ <;> try rfl
      have hne : c' ≠ c := fun e => h again msg (by rw [ht, e])
      simp [Transmission.noteRaise, hne]
  · exact ⟨fun _ _ => rfl, fun _ => rfl⟩

/-- R185: raising an enabled class marks a notice of the class that is being sent. -/
theorem raise_again {c : FlagClass} {l : Link} (on : l.mask.enables c = true) {again : Bool} {msg : Message}
    (h : l.transmitter = some ⟨.flag c again, msg⟩) : (l.raise c).transmitter = some ⟨.flag c true, msg⟩ := by
  simp [Link.raise, on, h, Transmission.noteRaise]

/-- R73, R185: a halt marks a HALT notice that is being sent. -/
theorem halt_again (reason : HaltReason) {again : Bool} {msg : Message}
    (h : s.link.transmitter = some ⟨.flag .halt again, msg⟩) :
    (s.halt reason).link.transmitter = some ⟨.flag .halt true, msg⟩ :=
  raise_again (l := s.link) rfl h

/-- The reason of a halt as the manual names it for each cause of a spoil (R106). -/
theorem halt_halted (reason : HaltReason) (s : State) : Halted reason s (s.halt reason) := by
  refine ⟨?_, ?_, ?_, ?_, ?_, fun _ _ => halt_again reason⟩ <;> simp [State.halt, State.raise, Link.raise, NoticeMask.enables, NoticeFlags.set, State.layDown,
    blankDrive, Sequencer.reset, State.headTag, State.head]

/-- A halt leaves everything outside the run alone. -/
theorem halt_frame (reason : HaltReason) (s : State) :
    HaltFrame s (s.halt reason) ∧ (s.halt reason).jobs = s.jobs ∧ (s.halt reason).log = s.log := by
  refine ⟨⟨?_, rfl, withdrawRead_withdrawn _, (raise_other _ _).1, (raise_other _ _).2⟩, rfl, rfl⟩
  simp [State.halt, State.raise, Link.raise, NoticeMask.enables, State.layDown, blankDrive]

/-- R112: the sequencer lays down its work: everything else is left alone. -/
theorem layDown_frame (s : State) : HaltFrame s s.layDown :=
  ⟨rfl, rfl, withdrawRead_withdrawn _, fun _ _ => rfl, fun _ => rfl⟩

/-- Coming to rest lays down the sequencer's work and pauses the run. -/
theorem rest_frame (s : State) :
    HaltFrame s s.rest ∧ s.rest.jobs = s.jobs ∧ s.rest.log = s.log ∧ s.rest.run = { s.run with state := .paused } ∧
      s.rest.seq = ⟨.between, 0, none, [], 0, false, none, none⟩ ∧ s.rest.drive = none ∧
      s.rest.link = s.link :=
  ⟨⟨rfl, rfl, withdrawRead_withdrawn _, fun _ _ => rfl, fun _ => rfl⟩, rfl, rfl, rfl, rfl, rfl, rfl⟩

/-- A spoil is a halt with the head job counted and the entry logged. -/
theorem spoil_spoiled (cause : SpoilCause) (line : Nat) (ch : Option Channel) (s : State) :
    Spoiled cause cause.reason line ch s (s.spoil cause line ch) := by
  have hh : (State.head ((blankDrive s).modifyHead fun j => { j with spoiled := raiseCount j.spoiled })).map Job.tag =
      s.head.map Job.tag := by
    unfold State.head State.modifyHead
    cases h : s.jobs.live <;> simp [blankDrive, h]
  constructor
  · constructor
    · simp only [State.spoil, State.halt, State.raise, Link.raise, NoticeMask.enables, State.layDown, if_true]
      simp only [State.headTag, State.head, List.head?] at hh ⊢
      simp only [State.modifyHead, blankDrive] at hh ⊢
      cases h : s.jobs.live <;> simp
    · exact ⟨rfl, rfl, rfl, rfl⟩
    · rfl
    · rfl
    · rfl
    · exact fun _ _ h => raise_again (l := s.link) rfl h
  · rfl
  · intro j rest h
    simp [State.spoil, State.halt, State.raise, Link.raise, NoticeMask.enables, State.layDown, blankDrive,
      State.modifyHead, h, raiseCount, Config.countStop]
  · simp [State.spoil, State.halt, State.raise, Link.raise, NoticeMask.enables, State.layDown, blankDrive,
      State.modifyHead, SpoilLog.append, State.headTag, State.head]
  · rfl

/-- A spoil leaves everything outside the run alone. -/
theorem spoil_frame (cause : SpoilCause) (line : Nat) (ch : Option Channel) (s : State) :
    HaltFrame s (s.spoil cause line ch) := by
  refine ⟨?_, ?_, withdrawRead_withdrawn _, (raise_other _ _).1, (raise_other _ _).2⟩
  · simp [State.spoil, State.halt, State.raise, Link.raise, NoticeMask.enables, State.layDown, blankDrive,
      State.modifyHead]
  · simp [State.spoil, State.halt, State.raise, Link.raise, NoticeMask.enables, State.layDown, blankDrive,
      State.modifyHead, Rgb.map]

/-- A halt's frame is the frame of a fault. -/
theorem HaltFrame.touched {t : State} (h : HaltFrame s t) (hr : s.seq.phase ≠ .between ∨ s.run.state ≠ .stopped) :
    RunTouched s t :=
  ⟨fun _ => h, fun a b => by simp [a, b] at hr⟩

/-- What a fault of the recorder does to the run, and what it leaves alone. -/
theorem meetFault_met (cause : SpoilCause) (ch : Option Channel) (s : State) :
    MetFault cause cause.reason ch s (s.meetFault cause ch) ∧ RunTouched s (s.meetFault cause ch) := by
  unfold State.meetFault
  cases h : s.seq.phase with
  | between =>
    by_cases hr : s.run.state = .stopped
    · simp only [hr, if_true]
      exact ⟨⟨by simp [h], by simp [h], by simp [hr], fun _ _ => ⟨rfl, rfl, rfl, rfl⟩⟩,
        by simp [h, hr], fun _ _ => rfl⟩
    · simp only [hr, if_false]
      exact ⟨⟨by simp [h], by simp [h], fun _ _ => ⟨halt_halted .., (halt_frame ..).2⟩, by simp [hr]⟩,
        (halt_frame ..).1.touched (.inr hr)⟩
  | preparing =>
    exact ⟨⟨by simp [h], fun _ => ⟨halt_halted .., (halt_frame ..).2⟩, by simp [h], by simp [h]⟩,
      (halt_frame ..).1.touched (.inl (by simp [h]))⟩
  | exposing =>
    exact ⟨⟨fun _ => spoil_spoiled .., by simp [h], by simp [h], by simp [h]⟩, (spoil_frame ..).touched (.inl (by simp [h]))⟩

/-- A HALT notice that `u` is sending is one that `s` is sending, its mark apart. -/
def SendsHalt (u s : State) : Prop :=
  ∀ again msg, u.link.transmitter = some ⟨.flag .halt again, msg⟩ →
    ∃ again', s.link.transmitter = some ⟨.flag .halt again', msg⟩

/-- The transmitter alone says which notice is being sent. -/
theorem SendsHalt.of_eq {u : State} (h : u.link.transmitter = s.link.transmitter) : SendsHalt u s :=
  fun again _ x => ⟨again, h ▸ x⟩

/-- Raising another class leaves a HALT notice that is being sent. -/
theorem SendsHalt.of_raise {c : FlagClass} (h : c ≠ .halt) : SendsHalt s (s.raise c) := fun again msg x =>
  ⟨again, by
    rw [← x]
    exact (raise_other c s.link).2 fun a m y => h (by rw [x] at y; cases y; rfl)⟩

/-- What a halt says of the state before it rests on the position, the jobs, the run and a HALT notice being sent. -/
theorem Halted.left {reason : HaltReason} {u t : State} (h : Halted reason s t)
    (hp : u.transport.position = s.transport.position) (hj : u.jobs = s.jobs) (hr : u.run = s.run)
    (hx : SendsHalt u s) : Halted reason u t :=
  ⟨by rw [hp, hj]; exact h.record, by rw [hr]; exact h.run, h.sequencer, h.blanked, h.notice,
    fun again msg x => have ⟨_, y⟩ := hx again msg x; h.raisedAgain _ msg y⟩

/-- What a spoil says of the state before it rests on those and the log. -/
theorem Spoiled.left {cause : SpoilCause} {reason : HaltReason} {line : Nat} {ch : Option Channel} {u t : State}
    (h : Spoiled cause reason line ch s t) (hp : u.transport.position = s.transport.position)
    (hj : u.jobs = s.jobs) (hr : u.run = s.run) (hl : u.log = s.log) (hx : SendsHalt u s) :
    Spoiled cause reason line ch u t :=
  ⟨h.toHalted.left hp hj hr hx, by rw [hj]; exact h.results, by rw [hj]; exact h.counted,
    by rw [hl, hp, hj]; exact h.logged, by rw [hl]; exact h.unsent⟩

/-- What a fault does to the run rests on those and the sequencer. -/
theorem MetFault.left {cause : SpoilCause} {reason : HaltReason} {ch : Option Channel} {u t : State}
    (h : MetFault cause reason ch s t) (hp : u.transport.position = s.transport.position)
    (hj : u.jobs = s.jobs) (hr : u.run = s.run) (hl : u.log = s.log) (hs : u.seq = s.seq)
    (hx : SendsHalt u s) : MetFault cause reason ch u t :=
  ⟨fun x => by rw [hs] at x ⊢; exact (h.exposing x).left hp hj hr hl hx,
    fun x => by rw [hs] at x; obtain ⟨a, b⟩ := h.preparing x; rw [hj, hl]; exact ⟨a.left hp hj hr hx, b⟩,
    fun x y => by rw [hs] at x; rw [hr] at y; obtain ⟨a, b⟩ := h.waiting x y; rw [hj, hl]; exact ⟨a.left hp hj hr hx, b⟩,
    fun x y => by rw [hs] at x; rw [hr] at y; rw [hr, hs, hj, hl]; exact h.stopped x y⟩

/-- What a fault leaves alone whatever the run was: everything outside the run, the sequencer, the drive, the claim,
the head job's record, the log, the readings to come and the HALT notice. -/
theorem RunTouched.rest {t : State} (h : RunTouched s t) :
    t = { s with run := t.run, seq := t.seq, drive := t.drive, arbiter := t.arbiter, monitor := t.monitor,
                 jobs := t.jobs, log := t.log,
                 link := { s.link with notices := t.link.notices, transmitter := t.link.transmitter } } := by
  by_cases hr : s.seq.phase = .between ∧ s.run.state = .stopped
  · rw [h.stopped hr.1 hr.2]
  · exact (h.halts (by rcases Decidable.not_and_iff_or_not.mp hr with x | x <;> simp [x])).rest

/-- R122: what the entry of the transport into FAULT does. -/
theorem enterTransportFault_faulted (cause : TransportCause) (s : State) :
    TransportFaulted cause s (s.enterTransportFault cause) := by
  unfold State.enterTransportFault
  obtain ⟨h1, h2⟩ := meetFault_met .transportFault none
    (State.endSeries s.transport.series { s with transport := s.transport.enterFault cause })
  generalize hv : State.endSeries s.transport.series { s with transport := s.transport.enterFault cause } = v at *
  have e : v = { s with transport := s.transport.enterFault cause, link := { s.link with current := v.link.current } } := by
    rw [← hv]; unfold State.endSeries; split <;> rfl
  have ht : (State.meetFault .transportFault none v).transport = s.transport.enterFault cause := by
    rw [h2.rest]; rw [e]
  have hl : (State.meetFault .transportFault none v).link.current = v.link.current := by rw [h2.rest]
  refine ⟨ht, fun hn => ?_, fun x hx => ?_, ?_, ?_⟩
  · rw [hl, ← hv, hn]; rfl
  · rw [hl, ← hv, hx]; rfl
  · exact h1.left (by rw [e]; rfl) (by rw [e]) (by rw [e]) (by rw [e]) (by rw [e])
      (.of_eq (by rw [e]))
  · rw [ht, hl, ← e]; exact h2

/-- R148: what the loss of the lock does. -/
theorem loseLock_lost (cause : LossCause) (s : State) : LockLost cause s (s.loseLock cause) := by
  unfold State.loseLock
  obtain ⟨h1, h2⟩ := meetFault_met .scanLost none
    { s with scan := { s.scan with state := .lost cause, noSignal := none } }
  generalize State.meetFault .scanLost none
    { s with scan := { s.scan with state := .lost cause, noSignal := none } } = t at *
  have hm : t.link.mask = s.link.mask := by rw [h2.rest]
  have hs : t.scan = { s.scan with state := .lost cause, noSignal := none } := by rw [h2.rest]
  have raised : ∀ r u, Halted r u t → Halted r u (t.raise .scan) := fun r u h =>
    ⟨h.record, h.run, h.sequencer, h.blanked, by
      rw [← h.notice]; unfold State.raise Link.raise; simp only; split <;> rfl,
      fun again msg x => by
        rw [← h.raisedAgain again msg x]
        exact (raise_other .scan t.link).2 fun a m y => by rw [h.raisedAgain again msg x] at y; cases y⟩
  have spoiled : ∀ c r l x u, Spoiled c r l x u t → Spoiled c r l x u (t.raise .scan) := fun c r l x u h =>
    ⟨raised r u h.toHalted, h.results, h.counted, h.logged, h.unsent⟩
  refine ⟨hs, ?_, fun hn => ?_, t, ?_, rfl⟩
  · exact ⟨fun x => spoiled _ _ _ _ _ ((h1.exposing x).left rfl rfl rfl rfl (.of_eq rfl)),
      fun x => ⟨raised _ _ ((h1.preparing x).1.left rfl rfl rfl (.of_eq rfl)), (h1.preparing x).2⟩,
      fun x y => ⟨raised _ _ ((h1.waiting x y).1.left rfl rfl rfl (.of_eq rfl)), (h1.waiting x y).2⟩,
      fun x y => h1.stopped x y⟩
  · simp [State.raise, Link.raise, NoticeMask.enables, hm, hn, NoticeFlags.set]
  · rw [show (t.raise .scan).scan = t.scan from rfl, hs]; exact h2

end Sys2Proof.Machine
end

