-- ==== Sys2Proof/Laws/Frames.lean ====
section
/-! SUPPORT. What the sequencer does in BETWEEN (R89 to R93), once for every command that brings it there, and what the
monitor filter completes (R159), in the words of Sys2Proof/Safety.lean. -/

namespace Sys2Proof.Machine

variable {s : State}

/-- One channel replaced: that channel and the others. -/
theorem get_setChannel (s : State) (x y : Channel) (c : MonitorChannel) :
    (s.setChannel x c).monitor.channels.get y = if x = y then c else s.monitor.channels.get y := by
  cases x <;> cases y <;> rfl

/-- R185: raising a class twice is raising it once. -/
theorem raise_raise (c : FlagClass) (l : Link) : (l.raise c).raise c = l.raise c := by
  unfold Link.raise
  split
  · dsimp only
    congr 1
    · cases l.transmitter with
      | none => rfl
      | some t => rcases t with ⟨x | ⟨c', again⟩ | x | _, msg⟩ <;> simp [Transmission.noteRaise]
    · cases c <;> rfl
  · rfl

/-- R165, R161: what the trim update of one channel does. -/
theorem trimChannel_trimmed {p : PowerTargets} {x : Channel} (h : s.monitor.targets = some p) :
    s.trimChannel p x =
      let c := s.monitor.channels.get x
      let c' := trimmed s.monitor.targets x c
      { s.setChannel x c' with link := if c'.flags = c.flags then s.link else s.link.raise .monitor } := by
  unfold State.trimChannel
  rw [h]
  by_cases hv : (s.monitor.channels.get x).valid = true ∧ (s.monitor.channels.get x).applied = false
  · have hb : ((s.monitor.channels.get x).valid && !(s.monitor.channels.get x).applied) = true := by simp [hv.1, hv.2]
    simp only [hb, if_true, trimmed, if_pos hv]
    generalize hc : s.monitor.channels.get x = c at *
    have hstep : steppedTrim c.trim (p.channels.get x).target c.mean =
        max (c.trim - 64) (min (c.trim + 64) (c.trim * (p.channels.get x).target / max c.mean 1)) := by
      unfold steppedTrim Config.trimStep; omega
    rw [hstep]
    generalize max (c.trim - 64) (min (c.trim + 64) (c.trim * (p.channels.get x).target / max c.mean 1)) = n
    have hclamp : clampTrim n = max 3072 (min 5120 n) := by unfold clampTrim Config.trimMax Config.trimMin; omega
    by_cases hn : n < 3072 ∨ 5120 < n
    · rw [if_neg (by rw [hclamp]; omega)]
      unfold State.setMonitorFlags
      rw [hclamp]
      simp only [get_setChannel, if_true, hn, decide_true, Bool.or_true]
      have hu : c.flags.union { MonitorFlags.clear with trimLimit := true } = { c.flags with trimLimit := true } := by
        simp [MonitorFlags.union, MonitorFlags.clear]
      rw [hu]
      split <;> cases x <;> rfl
    · rw [if_pos (by rw [hclamp]; omega), hclamp]
      simp only [hn, decide_false, Bool.or_false, if_true]
      rfl
  · have hb : ((s.monitor.channels.get x).valid && !(s.monitor.channels.get x).applied) = false := by
      revert hv; cases (s.monitor.channels.get x).valid <;> cases (s.monitor.channels.get x).applied <;> simp
    simp only [hb, Bool.false_eq_true, if_false, trimmed, hv, if_true]
    cases x <;> rfl

/-- R165, R161: what the trim update does: each channel trimmed, and MONITOR raised where a flag is set from clear. -/
theorem trimUpdate_trimmed (s : State) :
    (∀ ch, s.trimUpdate.monitor.channels.get ch = trimmed s.monitor.targets ch (s.monitor.channels.get ch)) ∧
      (¬ s.trimLimits → s.trimUpdate.link = s.link) ∧ (s.trimLimits → s.trimUpdate.link = s.link.raise .monitor) ∧
      s.trimUpdate = { s with
        monitor := { s.monitor with channels := s.trimUpdate.monitor.channels }, link := s.trimUpdate.link } := by
  unfold State.trimUpdate
  cases h : s.monitor.targets with
  | none =>
    refine ⟨fun ch => rfl, fun _ => rfl, fun ⟨ch, hl⟩ => ?_, ?_⟩
    · rw [h] at hl; exact absurd rfl hl
    · rfl
  | some p =>
    simp only
    have h1 := trimChannel_trimmed (x := .red) h
    have t1 : (s.trimChannel p .red).monitor.targets = some p := by rw [h1]; exact h
    have h2 := trimChannel_trimmed (x := .green) t1
    have t2 : ((s.trimChannel p .red).trimChannel p .green).monitor.targets = some p := by rw [h2]; exact t1
    have h3 := trimChannel_trimmed (x := .blue) t2
    rw [h3, h2, h1]
    have hlim : s.trimLimits ↔ ¬ (∀ ch,
        (trimmed (some p) ch (s.monitor.channels.get ch)).flags = (s.monitor.channels.get ch).flags) := by
      simp [State.trimLimits, h]
    have hall : (∀ ch, (trimmed (some p) ch (s.monitor.channels.get ch)).flags = (s.monitor.channels.get ch).flags) ↔
        (trimmed (some p) .red s.monitor.channels.red).flags = s.monitor.channels.red.flags ∧
        (trimmed (some p) .green s.monitor.channels.green).flags = s.monitor.channels.green.flags ∧
        (trimmed (some p) .blue s.monitor.channels.blue).flags = s.monitor.channels.blue.flags :=
      ⟨fun a => ⟨a .red, a .green, a .blue⟩, fun a ch => by cases ch <;> simp_all [Rgb.get]⟩
    rw [hlim, hall]
    simp only [State.setChannel, Rgb.get, Rgb.set, h]
    refine ⟨fun ch => by cases ch <;> rfl, fun hq => ?_, fun hq => ?_, trivial⟩
    · obtain ⟨r, g, b⟩ := not_not.1 hq
      rw [if_pos b, if_pos g, if_pos r]
    · split
      · split
        · rw [if_neg (fun r => hq ⟨r, by assumption, by assumption⟩)]
        · split <;> simp [raise_raise]
      · split
        · split <;> simp [raise_raise]
        · split <;> simp [raise_raise]

/-- Raising a class leaves the link's reception and its current request. -/
theorem raise_link (s : State) (c : FlagClass) :
    (s.raise c).link = { s.link with notices := (s.raise c).link.notices, transmitter := (s.raise c).link.transmitter } := by
  unfold State.raise Link.raise; simp only; split <;> rfl

/-- R165: the trim update leaves the current request. -/
theorem trimUpdate_current (s : State) : s.trimUpdate.link.current = s.link.current := by
  obtain ⟨-, hq, hl, -⟩ := trimUpdate_trimmed s
  by_cases h : s.trimLimits
  · rw [hl h]; unfold Link.raise; split <;> rfl
  · rw [hq h]

/-- R92: the trim update on entry to PREPARING. -/
theorem trimsUpdated_of (s : State) : TrimsUpdated s s.enterPreparing.trimUpdate := by
  obtain ⟨hc, hq, hl, hs⟩ := trimUpdate_trimmed s.enterPreparing
  have ht : s.enterPreparing.monitor.targets = s.monitor.targets := rfl
  have hg : ∀ ch, s.enterPreparing.monitor.channels.get ch = { s.monitor.channels.get ch with expecting := false } :=
    fun ch => by cases ch <;> rfl
  have same : ∀ ch, trimmed s.enterPreparing.monitor.targets ch (s.enterPreparing.monitor.channels.get ch) =
      { trimmed s.monitor.targets ch (s.monitor.channels.get ch) with expecting := false } := by
    intro ch
    rw [ht, hg]
    unfold trimmed
    split
    · simp only; split <;> rfl
    · rfl
  have hlim : s.enterPreparing.trimLimits ↔ s.trimLimits := by
    exact exists_congr fun ch => by rw [same ch, hg ch]
  exact ⟨by rw [hs]; rfl, fun ch => (hc ch).trans (same ch), fun h => hq (hlim.not.2 h), fun h => hl (hlim.2 h)⟩

/-- R93: the prefetcher's start changes only the set in assembly and the arbiter. -/
theorem prefetch_only (s : State) :
    s.prefetch = { s with
      arbiter := s.prefetch.arbiter, seq := { s.seq with assembly := s.prefetch.seq.assembly } } := by
  unfold State.prefetch State.beginSet State.serve
  split <;> rfl

/-- R165: a HALT notice that is being sent goes on through the entry to PREPARING. -/
theorem enterPreparing_sendsHalt (s : State) : SendsHalt s s.enterPreparing.trimUpdate.prefetch := by
  intro again msg x
  rw [prefetch_only]
  show ∃ a, s.enterPreparing.trimUpdate.link.transmitter = _
  by_cases h : s.trimLimits
  · rw [(trimsUpdated_of s).limited h]; exact SendsHalt.of_raise (by decide) again msg x
  · rw [(trimsUpdated_of s).quiet h]; exact ⟨again, x⟩

/-- R93: the set in assembly after the prefetcher's conditions have been examined. -/
theorem prefetch_assembly (s : State) :
    s.prefetch.seq.assembly =
      if s.prefetchable = [] then s.seq.assembly else some ⟨s.seq.cursor, [], s.prefetchable⟩ := by
  unfold State.prefetch State.beginSet State.serve
  cases h : s.prefetchable <;> simp

/-- R41, R42: what the arbiter does when it chooses. -/
theorem serve_chosen (sets : Nat) (a : Arbiter) : Chosen sets a (a.serve sets) := by
  obtain ⟨access, read, write, last⟩ := a
  constructor
  · cases access <;> simp [Arbiter.serve]
  · rintro ⟨⟩ ⟨⟩ ⟨⟩; rfl
  · rintro r ⟨⟩ ⟨⟩ h
    cases write with
    | none => rfl
    | some w =>
      by_cases hs : sets < 4
      · simp [Arbiter.serve, Config.sharedDepth, hs]
      · have hl : last = .planeWriter := by simp_all
        simp [Arbiter.serve, Config.sharedDepth, hs, hl]
  · rintro w ⟨⟩ ⟨⟩ h
    cases read with
    | none => rfl
    | some r =>
      have hs : ¬ sets < 4 ∧ last = .prefetcher := by simp_all
      simp [Arbiter.serve, Config.sharedDepth, hs]

/-- R93: the planes of the set the prefetcher may begin now. -/
theorem prefetchable_of {reel : Reel} {sel : Selector} {sels : List Selector} (h : BeginsSet s reel sel sels) :
    s.prefetchable = sel :: sels := by
  obtain ⟨j, hj, hp⟩ := Option.map_eq_some_iff.1 h.planes
  have hb : belowFillMarks s.planes s.seq.cursor (sel :: sels) = true := by
    refine List.all_eq_true.2 fun x hx => ?_
    obtain ⟨p, h1, h2⟩ := h.filled x hx
    simp [h1, h2]
  have hn : s.arbiter.prefetcherBusy = false := by
    unfold Arbiter.prefetcherBusy
    rw [h.noRead.1]
    cases ha : s.arbiter.access with
    | none => rfl
    | some x => cases x with
      | read c d => exact absurd ha (h.noRead.2 c d)
      | write c => rfl
  simp [State.prefetchable, State.head, hj, h.opened, hp, hb, hn, h.phase, h.noSet, h.line, h.room, Config.queueDepth]

/-- R93: the prefetcher begins no set unless its conditions hold. -/
theorem prefetchable_begins {sel : Selector} {sels : List Selector} (h : s.prefetchable = sel :: sels) :
    ∃ reel, BeginsSet s reel sel sels := by
  unfold State.prefetchable State.head at h
  split at h
  · rename_i j reel hj hr
    split at h
    · rename_i hc
      obtain ⟨h1, h2, h3, h4, h5, h6⟩ := hc
      refine ⟨reel, by rw [hj, Option.map_some, h], hr, h1, h2, h3, fun x hx => ?_, h5, ?_⟩
      · have := List.all_eq_true.1 h4 x (by rw [h]; exact hx)
        split at this
        · exact ⟨_, ‹_›, of_decide_eq_true this⟩
        · exact absurd this (by simp)
      · unfold Arbiter.prefetcherBusy at h6
        rw [Bool.or_eq_false_iff] at h6
        refine ⟨by simpa using h6.1, fun c d ha => ?_⟩
        rw [ha] at h6
        exact absurd h6.2 (by simp)
    · cases h
  · cases h

/-- R41, R93: the prefetcher's conditions are examined, and the arbiter chooses. -/
theorem prefetch_prefetched (s : State) : Prefetched s s.prefetch := by
  constructor
  · intro reel sel sels p h hp
    have hb : s.beginSet = { s with
        seq := { s.seq with assembly := some ⟨s.seq.cursor, [], sel :: sels⟩ }
        arbiter := { s.arbiter with readWaiting := some ⟨sel, p.base + s.seq.cursor, reel.width⟩ } } := by
      simp [State.beginSet, prefetchable_of h, readClaim, hp, State.rasterWidth, h.opened]
    unfold State.prefetch
    rw [hb]
    exact ⟨rfl, serve_chosen _ _⟩
  · intro h
    have hn : s.prefetchable = [] := by
      cases hs : s.prefetchable with
      | nil => rfl
      | cons sel sels =>
        obtain ⟨reel, hb⟩ := prefetchable_begins hs
        exact absurd hb (h reel sel sels)
    have hb : s.beginSet = s := by simp [State.beginSet, hn]
    unfold State.prefetch
    rw [hb]
    exact ⟨rfl, serve_chosen _ _⟩

/-- The prefetcher's conditions rest on the head job, the reel, the planes, the sequencer and the arbiter. -/
theorem Prefetched.left {u t : State} (h : Prefetched s t) (hj : u.jobs = s.jobs) (hr : u.reel = s.reel)
    (hp : u.planes = s.planes) (h1 : u.seq.phase = s.seq.phase) (h2 : u.seq.assembly = s.seq.assembly)
    (h3 : u.seq.cursor = s.seq.cursor) (h4 : u.seq.queue = s.seq.queue) (ha : u.arbiter = s.arbiter) :
    Prefetched u t := by
  have same : ∀ {reel sel sels}, BeginsSet u reel sel sels ↔ BeginsSet s reel sel sels := by
    intro reel sel sels
    constructor
    · rintro ⟨a, b, c, d, e, f, g, i⟩
      exact ⟨hj ▸ a, hr ▸ b, h1 ▸ c, h2 ▸ d, h3 ▸ e, hp ▸ h3 ▸ f, h4 ▸ g, ha ▸ i⟩
    · rintro ⟨a, b, c, d, e, f, g, i⟩
      exact ⟨hj ▸ a, hr ▸ b, h1 ▸ c, h2 ▸ d, h3 ▸ e, hp ▸ h3 ▸ f, h4 ▸ g, ha ▸ i⟩
  constructor
  · intro reel sel sels p x y
    rw [h3, h4, ha]
    exact h.begins reel sel sels p (same.1 x) (hp ▸ y)
  · intro x
    rw [h2, h4, ha]
    exact h.waits fun reel sel sels y => x reel sel sels (same.2 y)

/-- What the conditions decide is the set in assembly and the arbiter. -/
theorem Prefetched.right {t t' : State} (h : Prefetched s t) (hs : t'.seq.assembly = t.seq.assembly)
    (ha : t'.arbiter = t.arbiter) : Prefetched s t' :=
  ⟨fun reel sel sels p x y => by rw [hs, ha]; exact h.begins reel sel sels p x y, fun x => by rw [hs, ha]; exact h.waits x⟩

/-- R92, R93: what the trim update and the prefetcher's start leave of the state in PREPARING. -/
theorem preparing_of (j : Job) (rest : List Job) (hj : s.jobs.live = j :: rest) :
    Preparing j s s.enterPreparing.trimUpdate.prefetch := by
  have hs : s.enterPreparing.trimUpdate.seq =
      ⟨.preparing, 0, none, [], 0, false, none, some s.run.leadIn⟩ := by simp [State.enterPreparing, Sequencer.reset]
  have hp : s.enterPreparing.trimUpdate.prefetchable =
      match s.reel with
      | some reel =>
        if 0 < reel.lines ∧ belowFillMarks s.planes 0 j.work.planes ∧ s.arbiter.withdrawRead.prefetcherBusy = false
        then j.work.planes else []
      | none => [] := by
    unfold State.prefetchable State.head
    simp only [State.trimUpdate_frame, State.enterPreparing_frame, hj, List.head?_cons]
    have ha : s.enterPreparing.arbiter = s.arbiter.withdrawRead := rfl
    rw [ha]
    cases s.reel with
    | none => rfl
    | some r =>
      have hs : s.enterPreparing.seq =
        ⟨.preparing, 0, none, [], 0, false, none, some s.run.leadIn⟩ := rfl
      simp [hs, Config.queueDepth]
  have ha := prefetch_assembly s.enterPreparing.trimUpdate
  rw [hs] at ha
  simp only at ha
  constructor
  · rw [prefetch_only, hs]; rfl
  · simp
  · simp
  · simp [State.enterPreparing, State.layDown, blankDrive]
  · obtain ⟨a, b, c, d⟩ := trimsUpdated_of s
    rw [prefetch_only]
    exact ⟨a, b, c, d⟩
  · intro reel hr hl hne hf hn
    have hb : belowFillMarks s.planes 0 j.work.planes = true := by
      unfold belowFillMarks
      rw [List.all_eq_true]
      intro x hx
      obtain ⟨p, h1, h2⟩ := hf x hx
      simp [h1, h2]
    have hu : s.arbiter.withdrawRead.prefetcherBusy = false := by
      unfold Arbiter.withdrawRead Arbiter.prefetcherBusy
      cases h : s.arbiter.access with
      | none => rfl
      | some a => cases a with
        | read c d => exact absurd h (hn c d)
        | write c => rfl
    rw [hr] at hp
    simp only [hl, hb, hu, and_self, if_true] at hp
    rw [ha, hp, if_neg hne]
  · intro h
    have : s.enterPreparing.trimUpdate.prefetchable = [] := by
      rw [hp]
      split
      · rename_i reel _
        rcases h with h | ⟨x, hx, h⟩
        · simp [h]
        · rw [if_neg]
          rintro ⟨_, hb, _⟩
          unfold belowFillMarks at hb
          have := List.all_eq_true.1 hb x hx
          cases hg : Table.get s.planes x.wire with
          | none => simp [hg] at this
          | some p => simp [hg, h p hg] at this
      · rfl
    rw [ha, this, if_pos rfl]
  · refine ⟨s.arbiter.withdrawRead, withdrawRead_withdrawn _, ?_⟩
    refine (prefetch_prefetched s.enterPreparing.trimUpdate).left ?_ ?_ ?_ ?_ ?_ ?_ ?_ ?_ <;>
      first | rfl | simp [State.enterPreparing, State.layDown, blankDrive, Sequencer.entered, Sequencer.reset]

/-- R89 to R91: what the sequencer does in BETWEEN in RUNNING. -/
theorem goOn_nextFrame (s : State) : NextFrame s s.goOn := by
  have lost : (∃ ch, (s.monitor.channels.get ch).lost = true) ↔ s.monitor.anyLost = true := by
    unfold Monitor.anyLost Rgb.any
    simp only [Bool.or_eq_true]
    constructor
    · rintro ⟨ch, h⟩; cases ch <;> simp_all [Rgb.get]
    · rintro ((h | h) | h)
      · exact ⟨.red, h⟩
      · exact ⟨.green, h⟩
      · exact ⟨.blue, h⟩
  have some_ : ∀ {j rest}, s.jobs.live = j :: rest → s.goOn = s.prepare := by
    intro j rest h; unfold State.goOn State.head; rw [h]; rfl
  have some' : s.jobs.live ≠ [] → s.goOn = s.prepare := by
    intro h; obtain ⟨j, rest, h⟩ := List.exists_cons_of_ne_nil h; exact some_ h
  have found : (∀ ch, (s.monitor.channels.get ch).lost = false) → s.monitor.anyLost = false := by
    intro h
    by_contra hc
    obtain ⟨ch, hc⟩ := lost.2 (by simpa using hc)
    simp [h ch] at hc
  have none_ : s.jobs.live = [] → s.goOn = if s.run.pendingStop ≠ .none then s.halt .stopRequest
      else match s.run.mode with
        | .endOnEmpty => s.halt .queueEmpty
        | .holdOnEmpty => s.layDown := by
    intro h; unfold State.goOn State.head; rw [h]; rfl
  let t := s.enterPreparing.trimUpdate.prefetch
  have tt : t.transport = s.transport := by simp [t]
  have tj : t.jobs = s.jobs := by simp [t]
  have used : s.monitor.anyLost = false → s.transport.gate = .used → s.prepare = t.requestPullDown := by
    intro h1 h2; unfold State.prepare; rw [h1, h2]; rfl
  have ans : t.pullDownAnswer = s.pullDownAnswer := by
    unfold State.pullDownAnswer; simp [t]
  have hleft : ∀ r, Halted r t (t.halt r) → Halted r s (t.halt r) := fun r h =>
    h.left (by rw [tt]) (by simp [t]) (by simp [t]) (enterPreparing_sendsHalt s)
  constructor
  · intro h1 h2; rw [none_ h1, if_pos h2]; exact ⟨halt_halted .., (halt_frame ..).1, rfl⟩
  · intro h1 h2 h3; rw [none_ h1, if_neg (by simp [h2]), h3]; exact ⟨halt_halted .., (halt_frame ..).1, rfl⟩
  · intro h1 h2 h3; rw [none_ h1, if_neg (by simp [h2]), h3]
    exact ⟨rfl, rfl, rfl, rfl, rfl, layDown_frame s, rfl⟩
  · intro h1 h2; rw [some' h1]; unfold State.prepare; rw [lost.1 h2, if_pos rfl]
    exact ⟨halt_halted .., (halt_frame ..).1, rfl⟩
  · intro j rest hj hl hg _
    have hp : s.prepare = t := by unfold State.prepare; rw [found hl, hg]; rfl
    rw [some_ hj, hp]
    exact ⟨preparing_of j rest hj, tt⟩
  · intro j rest hj hl hg hr he hc
    have hans : s.pullDownAnswer = .taken := by
      unfold State.pullDownAnswer
      rw [if_neg (by simp [hr]), if_neg, if_neg (by simp [he])]
      cases h : s.reel with
      | none => simp
      | some r => simpa using hc r h
    rw [some_ hj, used (found hl) hg]
    unfold State.requestPullDown
    rw [ans, hans]
    have hp := preparing_of j rest hj
    exact ⟨⟨hp.items, hp.run, hp.jobs, hp.blanked, ⟨hp.trims.1, hp.trims.2, hp.trims.3, hp.trims.4⟩, hp.begun, hp.notBegun,
      hp.claimed.imp fun a x => ⟨x.1, x.2.right rfl rfl⟩⟩, by
      simp [State.startPullDown, tt]⟩
  · intro j rest hj hl hg hr he
    have hans : s.pullDownAnswer = .endOfReel := by
      unfold State.pullDownAnswer
      rw [if_neg (by simp [hr])]
      rcases he with he | ⟨r, h1, h2⟩
      · simp [he]
      · rw [if_pos (by simp [h1, h2])]
    rw [some_ hj, used (found hl) hg]
    unfold State.requestPullDown
    rw [ans, hans]
    exact ⟨hleft _ (halt_halted ..), tj, tt, t, preparing_of j rest hj, (halt_frame ..).1⟩
  · intro j rest hj hl hg hr
    have hans : s.pullDownAnswer = .notRegistered := by
      unfold State.pullDownAnswer; rw [if_pos hr]
    rw [some_ hj, used (found hl) hg]
    unfold State.requestPullDown
    rw [ans, hans]
    exact ⟨hleft _ (halt_halted ..), tj, tt, t, preparing_of j rest hj, (halt_frame ..).1⟩
  · have hc : s.goOn.link.current = s.link.current := by
      unfold State.goOn
      have hh : ∀ (u : State) r, (u.halt r).link.current = u.link.current := fun u r => by
        unfold State.halt; rw [raise_link]; rfl
      have ht : t.link.current = s.link.current := by
        simp only [t]; rw [prefetch_only]; show s.enterPreparing.trimUpdate.link.current = _; rw [trimUpdate_current]; rfl
      split
      · unfold State.prepare
        split
        · rw [hh]
        · split
          · exact ht
          · show t.requestPullDown.link.current = _
            unfold State.requestPullDown
            split
            · exact ht
            · rw [hh, ht]
            · rw [hh, ht]
      · split
        · rw [hh]
        · split
          · rw [hh]
          · rfl
    refine ⟨?_, ?_, ?_, ?_, ?_, ?_, ?_, ?_, ?_, hc⟩ <;> simp

/-- A frame is passed only in PREPARING, with a BLANK head job and fresh film registered. -/
theorem passBlank_idle (h : ¬ (s.seq.phase = .preparing ∧ s.transport.isReady = true ∧
    ∃ j rest, s.jobs.live = j :: rest ∧ j.work = .blank)) : s.passBlank = s := by
  unfold State.passBlank State.head
  cases hj : s.jobs.live with
  | nil => rfl
  | cons j rest =>
    simp only [List.head?_cons]
    rw [if_neg]
    rintro ⟨h1, h2, h3⟩
    exact h ⟨h1, h3, j, rest, hj, h2⟩

/-- The end of a BLANK job touches no plane and no curve set (R16, R17). -/
theorem endJob_blank (o : JobOutcome) (j : Job) (hj : j.work = .blank) (s : State) :
    s.endJob o j = { s with jobs :=
      ⟨s.jobs.live.eraseP fun k => decide (k.tag = j.tag), s.jobs.results ++ [{ j with outcome := some o }]⟩ } := by
  unfold State.endJob State.releasePlanes State.releaseUses
  simp only [hj, Work.release, Bool.false_eq_true, if_false, Work.planes, Work.curve, usePlanes, useCurve]
  split <;> rfl

/-- A BLANK frame that is passed leaves tables, scan, lasers and log. -/
theorem passBlank_tables (s : State) :
    s.passBlank.planes = s.planes ∧ s.passBlank.curves = s.curves ∧
      s.passBlank.link.current = s.link.current := by
  unfold State.passBlank State.head
  cases hj : s.jobs.live with
  | nil => exact ⟨rfl, rfl, rfl⟩
  | cons j rest =>
    simp only [List.head?_cons]
    split
    · rename_i h
      have hl : s.countBlank.jobs.live = Job.atPosition s.transport.position { j with framesDone := j.framesDone + 1 } :: rest := by
        simp [State.countBlank, State.modifyHead, hj]
      have hc : s.countBlank.completeHead.planes = s.planes ∧ s.countBlank.completeHead.curves = s.curves ∧
          s.countBlank.completeHead.link = s.link := by
        unfold State.completeHead State.head
        rw [hl]
        simp only [List.head?_cons]
        split
        · rw [endJob_blank .complete (Job.atPosition s.transport.position { j with framesDone := j.framesDone + 1 }) h.2.1]
          exact ⟨rfl, rfl, rfl⟩
        · exact ⟨rfl, rfl, rfl⟩
      have hh : ∀ (u : State) r, (u.halt r).planes = u.planes ∧ (u.halt r).curves = u.curves ∧
          (u.halt r).link.current = u.link.current := fun u r =>
        ⟨by rw [(halt_frame r u).1.rest], by rw [(halt_frame r u).1.rest], by rw [(halt_frame r u).1.rest]⟩
      unfold State.frameEnd
      simp only
      split
      · obtain ⟨a, b, c⟩ := hh s.countBlank.completeHead .stopRequest
        exact ⟨a.trans hc.1, b.trans hc.2.1, by rw [c, hc.2.2]⟩
      · split
        · exact ⟨hc.1, hc.2.1, by show s.countBlank.completeHead.link.current = _; rw [hc.2.2]⟩
        · obtain ⟨a, b, _, _, _, _, _, _, _, c⟩ := (goOn_nextFrame s.countBlank.completeHead).frame
          exact ⟨a.trans hc.1, b.trans hc.2.1, by rw [c, hc.2.2]⟩
    · exact ⟨rfl, rfl, rfl⟩

/-- R105 steps 2 to 4: what a frame end does once a finished job has ended. -/
theorem frameEnd_ended (s : State) (hr : s.completeHead.run = s.run) :
    FrameEnded (s.headDone = true) s.completeHead s.frameEnd := by
  unfold State.frameEnd
  generalize s.completeHead = u at *
  simp only
  constructor
  · intro h
    rw [hr] at h
    rw [if_pos h]
    exact ⟨halt_halted .., (halt_frame ..).1, rfl⟩
  · intro h hp
    rw [hr] at h hp
    rw [if_neg (by rcases h with h | h <;> simp [h]), if_pos hp]
    exact ⟨rfl, rfl, rfl, rfl, (rest_frame _).1, rfl⟩
  · intro h hp
    rw [hr] at h hp
    rw [if_neg (by rcases h with h | h <;> simp [h]), if_neg hp]
    exact goOn_nextFrame u

/-- R98, R105: a BLANK frame that is passed: the state at its frame end, and the frame end. -/
theorem passBlank_passed {j : Job} {rest : List Job} (hj : s.jobs.live = j :: rest) (hw : j.work = .blank)
    (hp : s.seq.phase = .preparing) (hr : s.transport.state = .registered) (hg : s.transport.gate = .fresh) :
    ∃ u : State, u = { s with
        jobs := blankCounted j rest s.jobs.results s.transport.position
        seq := { s.seq with leadTimer := none, phase := .between }
        transport := { s.transport with gate := .used } } ∧
      FrameEnded (j.framesDone + 1 = j.repeatCount) u s.passBlank := by
  have hpass : s.passBlank = s.countBlank.frameEnd := by
    simp [State.passBlank, State.head, hj, hp, hw, Transport.isReady, hr, hg]
  obtain ⟨k, hk⟩ : ∃ k, k = Job.atPosition s.transport.position { j with framesDone := j.framesDone + 1 } := ⟨_, rfl⟩
  have hl : s.countBlank.jobs.live = k :: rest := by simp [State.countBlank, State.modifyHead, hj, hk]
  have hdone : (s.countBlank.headDone = true) = (j.framesDone + 1 = j.repeatCount) := by
    simp [State.headDone, State.head, hl, hk, Job.atPosition]
  have hu : s.countBlank.completeHead = { s with
      jobs := blankCounted j rest s.jobs.results s.transport.position
      seq := { s.seq with leadTimer := none, phase := .between }
      transport := { s.transport with gate := .used } } := by
    unfold State.completeHead State.head
    rw [hl]
    simp only [List.head?_cons]
    have hkb : k.work = .blank := by rw [hk]; exact hw
    by_cases hd : j.framesDone + 1 = j.repeatCount
    · rw [if_pos (by rw [hk]; exact hd), endJob_blank _ _ hkb, hl]
      simp [State.countBlank, State.modifyHead, blankCounted, hd, hk, Job.atPosition]
    · rw [if_neg (by rw [hk]; exact hd)]
      simp [State.countBlank, State.modifyHead, blankCounted, hd, hj, Job.atPosition]
  refine ⟨_, rfl, ?_⟩
  rw [hpass, ← hu, ← hdone]
  exact frameEnd_ended _ (by rw [hu]; rfl)

/-- R89 to R91, R98: what the sequencer does in BETWEEN, with the passing of a BLANK frame behind it. -/
theorem NextFrame.passed {t : State} (h : NextFrame s t) : NextFrame s t.passBlank := by
  have idle : t.seq.phase = .between → t.passBlank = t := fun hp => passBlank_idle (by simp [hp])
  have halted : ∀ r, Halted r s t → t.passBlank = t := fun r x => idle (by rw [x.sequencer])
  obtain ⟨f1, f2, f3, f4, f5, f6, f7, f8, f9, f10⟩ := h.frame
  obtain ⟨p1, p2, p3⟩ := passBlank_tables t
  constructor
  · intro a b; have := h.stops a b; rw [halted _ this.1]; exact this
  · intro a b c; have := h.ends a b c; rw [halted _ this.1]; exact this
  · intro a b c; have := h.waits a b c; rw [idle (by rw [this.2.1])]; exact this
  · intro a b; have := h.clock a b; rw [halted _ this.1]; exact this
  · intro j rest a b c d
    have := h.fresh j rest a b c d
    rw [passBlank_idle]
    · exact this
    · rintro ⟨_, hr, k, l, hk, hw⟩
      rw [this.1.jobs, a] at hk
      cases hk
      rcases d with d | d
      · exact d hw
      · rw [this.2] at hr
        exact d (of_decide_eq_true hr).1
  · intro j rest a b c d e g
    have := h.pulls j rest a b c d e g
    rw [passBlank_idle]
    · exact this
    · rintro ⟨_, hr, _⟩
      rw [this.2] at hr
      simp [Transport.isReady] at hr
  · intro j rest a b c d e; have := h.atEnd j rest a b c d e; rw [halted _ this.1]; exact this
  · intro j rest a b c d; have := h.notReady j rest a b c d; rw [halted _ this.1]; exact this
  · exact ⟨p1.trans f1, p2.trans f2, by simpa using f3, by simpa using f4, by simpa using f5, by simpa using f6,
      by simpa using f7, by simpa using f8, by simpa using f9, p3.trans f10⟩

/-- R105: a frame end, with the passing of a BLANK frame behind it. -/
theorem FrameEnded.passed {ended : Prop} {t : State} (h : FrameEnded ended s t) : FrameEnded ended s t.passBlank := by
  have idle : t.seq.phase = .between → t.passBlank = t := fun hp => passBlank_idle (by simp [hp])
  refine ⟨fun a => ?_, fun a b => ?_, fun a b => (h.goesOn a b).passed⟩
  · have := h.stops a; rw [idle (by rw [this.1.sequencer])]; exact this
  · have := h.rests a b; rw [idle (by rw [this.2.1])]; exact this

/-- R89 to R91, R98: what the sequencer does in BETWEEN in RUNNING, by any command that brings it there. -/
theorem between_goesOn (s : State) : GoesOn s s.between := by
  refine ⟨(goOn_nextFrame s).passed, fun j rest hj hw hl hg hr => ?_⟩
  have hg' : s.goOn = s.enterPreparing.trimUpdate.prefetch := by
    have hlost : s.monitor.anyLost = false := by
      simp only [Monitor.anyLost, Rgb.any, Bool.or_eq_false_iff]
      exact ⟨⟨hl .red, hl .green⟩, hl .blue⟩
    simp [State.goOn, State.head, hj, State.prepare, hlost, hg]
  unfold State.between
  rw [hg']
  have hp := preparing_of j rest hj
  obtain ⟨a, hw1, hw2⟩ := hp.claimed
  have hn := hp.notBegun (.inl (by rw [hw]; rfl))
  have hseq : (s.enterPreparing.trimUpdate.prefetch).seq = Sequencer.entered s.run.leadIn := by
    rw [← hp.items, ← hn]
  have ha := (hw2.waits fun reel sel sels x => by
    have := x.planes
    simp [hj, hw, Work.planes] at this).2
  have ht : (s.enterPreparing.trimUpdate.prefetch).transport = s.transport := by simp
  obtain ⟨u, hu, he⟩ := passBlank_passed (s := s.enterPreparing.trimUpdate.prefetch) (j := j) (rest := rest)
    (by rw [hp.jobs, hj]) hw (by rw [hseq]; rfl) (by rw [ht, hr]) (by rw [ht, hg])
  refine ⟨u, a, ?_, hw1, ?_, ?_, he⟩
  · have hk := prefetch_only s.enterPreparing.trimUpdate
    have hv := (trimUpdate_trimmed s.enterPreparing).2.2.2
    generalize s.enterPreparing.trimUpdate.prefetch = w at hk hp hseq ht hu ⊢
    rw [hu, hseq, ht, hp.jobs, hk]
    dsimp only
    rw [hv]
    rfl
  · rw [hu]; exact ha
  · obtain ⟨h1, h2, h3, h4⟩ := hp.trims
    rw [hu]
    exact ⟨h1, h2, h3, h4⟩

/-- R136, R146: an SOS that is passed on reaches the Frame Sequencer as the facet sync of its facet. -/
theorem sosPulse_passed {elapsed p : Nat} (h : SyncPassed elapsed p s) :
    exec (.sosPulse elapsed) s = .next ((synced elapsed p s).facetSync s.scan.facetCount elapsed) := by
  obtain ⟨h0, h1, h2, h3, ⟨ps, h4, h5⟩, h6⟩ := h
  have hg : goodPeriod s.scan.geometry.tolerance (elapsed / 10 * 10) p =
      goodFor elapsed s.scan.geometry.tolerance p := rfl
  show Host.Outcome.next (if s.resetPin then s else sosPulse elapsed s) = _
  rw [h0]
  simp only [Bool.false_eq_true, if_false, sosPulse, h1, State.supervise, Scan.measure, h2, if_true,
    Option.getD_some, h4, List.getD, h5, hg, Nat.not_lt.2 (Nat.succ_le_of_lt h3)]
  cases hb : goodFor elapsed s.scan.geometry.tolerance p with
  | true => simp [synced, hb, h1, h4, Geometry.sosGap]
  | false =>
    have hm : s.scan.misses + 1 ≠ s.scan.geometry.missLimit := h6.resolve_left (by simp [hb])
    simp [synced, hb, h1, h4, hm, Geometry.sosGap]

/-! ## A line at its facet sync (R100 to R102) -/

/-- A line laid out for a state `u` whose corrections, trims, placement and curves are those of `s` is the drive that the
statements give for `s`. -/
theorem layLine_driven {line facet : Nat} {reel : Reel} {work : Work} {rows : List Row} {u : State}
    (hc : u.scan.corrections = s.scan.corrections)
    (hm : ∀ ch, (u.monitor.channels.get ch).trim = (s.monitor.channels.get ch).trim) (hp : u.placement = s.placement)
    (hv : u.curves = s.curves) (hf : u.freeEpoch = s.freeEpoch)
    (hq : ∀ planes curve release set rest, work = .expose planes curve release → s.seq.queue = set :: rest →
      rows = set.rows) :
    ∃ d, LineDriven line facet work reel s d ∧ layLine line facet reel work rows u = { u with
      drive := some d
      seq := { u.seq with saturation := u.seq.saturation || d.pixels.any (PixelRow.clampedIn reel.width) }
      monitor := { u.monitor with
        channels := u.monitor.channels.map fun c => { c with expecting := decide (d.delay ≠ 0) && !c.lost } } } := by
  refine ⟨_, ?_, rfl⟩
  have trims : u.monitor.channels.map (fun c => pulseLevel c.trim) =
      s.monitor.channels.map fun c => (2048 * c.trim + 2048) / 4096 := by
    have r := hm .red; have g := hm .green; have b := hm .blue
    simp only [Rgb.get] at r g b
    simp [Rgb.map, pulseLevel, trimmedLevel, Config.referenceLevel, r, g, b]
  have row : ∀ ch, Rgb.get ⟨channelRow u work rows .red, channelRow u work rows .green,
      channelRow u work rows .blue⟩ ch = channelRow u work rows ch := fun ch => by cases ch <;> rfl
  constructor
  · exact ⟨rfl, rfl⟩
  · simp [activeStart, hc]
  · intro h; exact if_pos h
  · intro h; exact (if_neg h).trans (congrArg some trims)
  · rintro curve values ch rfl; rw [row]; simp [channelRow, hm, hp, hv, hf]
  · intro planes curve release set rest ch hw hs
    obtain rfl := hq _ _ _ _ _ hw hs
    subst hw; rw [row]
    simp [channelRow, hm, hp, hv, hf, codeValue]

/-- R101: an EXPOSE line is laid out from the line set at the head of the queue, and the prefetcher's conditions are
then examined. -/
theorem driveLine_expose {line facet : Nat} {reel : Reel} {j : Job} {rest : List Job} {p : Rgb Selector} {c : Nat}
    {r : Bool} {set : LineSet} {sets : List LineSet} (hj : s.jobs.live = j :: rest) (hr : s.reel = some reel)
    (hw : j.work = .expose p c r) (hq : s.seq.queue = set :: sets) :
    s.driveLine line facet =
      (layLine line facet reel j.work set.rows { s with seq := { s.seq with queue := sets } }).prefetch := by
  unfold State.driveLine State.head
  rw [hj, hr, hq]
  simp only [List.head?_cons, hw]

/-- R101: a FLASH line is laid out from the flash values. -/
theorem driveLine_flash {line facet : Nat} {reel : Reel} {j : Job} {rest : List Job} {c : Nat} {v : Rgb Nat}
    (hj : s.jobs.live = j :: rest) (hr : s.reel = some reel) (hw : j.work = .flash c v) :
    s.driveLine line facet = layLine line facet reel j.work [] s := by
  unfold State.driveLine State.head
  rw [hj, hr]
  simp only [List.head?_cons, hw]

/-- R100, R103: what a line cut short leaves: the mark before it, and the clamps of the pixels begun. -/
theorem cutLine_marked {elapsed : Nat} {l : LineDrive} {reel : Reel} (hd : s.drive = some l) (hr : s.reel = some reel) :
    cutLine elapsed s = { s with seq := { s.seq with
      saturation := l.markBefore || l.pixels.any (PixelRow.clampedIn
        (min reel.width (((elapsed - l.delay) * 1000 + (s.scan.geometry.pixelPeriod - 1)) /
          s.scan.geometry.pixelPeriod))) } } := by
  unfold cutLine; rw [hd, hr]; rfl

/-! ## The monitor filter (R159) -/

/-- R159: the filter gives a count exactly where the OSR-th sample has completed a reading. -/
theorem filterCount_completes (osr pulse : Nat) (edges : List ClockEdge) (n : Nat) :
    filterCount osr pulse edges = some n ↔ ReadingCompletes osr pulse edges n := by
  unfold filterCount ReadingCompletes samplesOf
  generalize edges.filter (fun e => e.rising && decide (0 < e.time)) = samples
  dsimp only
  constructor
  · intro h
    split at h
    · rename_i hc
      refine ⟨samples.take osr, samples.drop osr, (List.take_append_drop ..).symm, hc.1, by simpa using hc.2, ?_⟩
      rw [← Option.some.inj h, List.countP_eq_length_filter]
    · cases h
  · rintro ⟨taken, later, rfl, rfl, hp, rfl⟩
    rw [List.take_left, if_pos ⟨rfl, by simpa using hp⟩, List.countP_eq_length_filter]

/-- R100: the length of the reference pulse of the line under way, in ps. -/
theorem pulseLength_eq (s : State) : s.pulseLength = (s.drive.map fun l => l.delay * 1000).getD 0 := by
  unfold State.pulseLength; cases s.drive <;> rfl

end Sys2Proof.Machine
end

