-- ==== Sys2Proof/Laws/Step.lean ====
section
/-! SUPPORT. How the outcome of a command is found: an event acts on the state, a request reaches its
block or is a message that arrives, a line change sets levels and acts; and what is to be shown of a
property that each kind keeps. -/

namespace Sys2Proof.Machine

variable {s t : State} {P : State → Prop}

/-- An event answers the next state it makes, or leaves the state while RESET is asserted. -/
theorem event_eq (f : State → State) (s : State) : event f s = .next (if s.resetPin then s else f s) := rfl

/-- A request that is with its block is carried out by the block. -/
theorem carryOut_handed {i : Instr} {m : Message} {block : State → State} (h : s.Handed i m) :
    carryOut i block s = .next (block s) := by
  obtain ⟨h0, h1, h2⟩ := h
  simp [carryOut, event, State.request, State.isHanded, h0, h1, h2]

/-- What a request command can do: nothing, its block's work, the arrival of its message, or that and
then its block's work. -/
theorem request_cases (i : Instr) (block : State → State) (s : State) :
    State.request i block s = s ∨ (s.isHanded i = true ∧ State.request i block s = block s) ∨
    ∃ m, i.encode = some m ∧ (State.request i block s = s.arrive m ∨
      (s.link.current = none ∧ (s.arrive m).link.current = some ⟨m, .handed⟩ ∧
        State.request i block s = block (s.arrive m))) := by
  unfold State.request
  split
  · exact .inr (.inl ⟨‹_›, rfl⟩)
  · split
    · exact .inl rfl
    · rename_i m hm
      refine .inr (.inr ⟨m, hm, ?_⟩)
      simp only
      split
      · rename_i h; exact .inr ⟨h.1, h.2, rfl⟩
      · exact .inl rfl

/-- A property that the event's effect keeps is kept by the event. -/
theorem event_keeps {f : State → State} (hf : s.resetPin = false → P s → P (f s)) (hp : P s)
    (h : event f s = .next t) : P t := by
  rw [event_eq] at h
  injection h with h
  subst h
  cases hr : s.resetPin <;> simp_all

/-- A property that the arrival of a message and the block keep is kept by the request. -/
theorem carryOut_keeps {i : Instr} {block : State → State}
    (ha : ∀ m, P s → P (s.arrive m))
    (hb : ∀ u : State, u.resetPin = false → (∃ m, u.link.current = some ⟨m, .handed⟩) → P u → P (block u)) (hp : P s)
    (h : carryOut i block s = .next t) : P t := by
  refine event_keeps (fun hr hp => ?_) hp h
  rcases request_cases i block s with h | ⟨hh, h⟩ | ⟨m, _, h | ⟨_, hc, h⟩⟩ <;> rw [h]
  · exact hp
  · refine hb s hr ?_ hp
    unfold State.isHanded at hh
    split at hh <;> simp_all
  · exact ha m hp
  · refine hb _ ?_ ⟨m, hc⟩ (ha m hp)
    rw [← hr]; simp

/-- What the examination of a request can do: refuse it, or its effect where no check fails. -/
theorem examine_cases (checks : List Check) (effect : State → State) (s : State) :
    (∃ r, firstFailing checks = some r ∧ s.examine checks effect = s.answer r) ∨
      (firstFailing checks = none ∧ s.examine checks effect = effect s) := by
  unfold State.examine
  split
  · exact .inl ⟨_, ‹_›, rfl⟩
  · exact .inr ⟨‹_›, rfl⟩

/-- No check of a table fails: each of them passes. -/
theorem firstFailing_none {checks : List Check} (h : firstFailing checks = none) : ∀ c ∈ checks, c.1 = false := by
  induction checks with
  | nil => simp
  | cons c cs ih =>
    obtain ⟨b, code, d⟩ := c
    unfold firstFailing at h
    split at h
    · cases h
    · simp_all

/-- A property that answering keeps, and the effect where the checks pass, is kept by the examination. -/
theorem examine_keeps {checks : List Check} {effect : State → State} (ha : ∀ r, P s → P (s.answer r))
    (he : (∀ c ∈ checks, c.1 = false) → P s → P (effect s)) (hp : P s) : P (s.examine checks effect) := by
  rcases examine_cases checks effect s with ⟨r, _, h⟩ | ⟨hn, h⟩ <;> rw [h]
  · exact ha r hp
  · exact he (firstFailing_none hn) hp

/-- What a line change can do. -/
theorem lineChange_cases (levels : Lines) (effect : State → State) (s : State) :
    (s.resetPin = true ∧ lineChange levels effect s =
      .next { s with pins := ⟨levels, Lines.none⟩, transport := Transport.reset levels.filmPresent }) ∨
    (s.resetPin = false ∧ levels = s.pins.levels ∧ lineChange levels effect s = .next s) ∨
    (s.resetPin = false ∧ levels ≠ s.pins.levels ∧
      lineChange levels effect s = .next (effect (s.setLevels levels))) := by
  unfold lineChange
  cases h : s.resetPin <;> by_cases hl : levels = s.pins.levels <;> simp [hl]

/-- Line levels that change: pins and a raised class. -/
theorem setLevels_eq {levels : Lines} (h : levels ≠ s.pins.levels) :
    s.setLevels levels = State.raise .lines
      { s with pins := ⟨levels, Lines.zip (· || ·) s.pins.changed (Lines.zip xor s.pins.levels levels)⟩ } := by
  unfold State.setLevels; rw [if_neg h]

end Sys2Proof.Machine
end

