-- ==== Sys2Proof/Laws/Keeps.lean ====
section
/-! SUPPORT. What a step can do, said once: a property that every piece of work of the part keeps is kept
by every command. A later proof of an invariant shows the pieces and cites `Keeps.exec`; it never splits
the commands again. -/

namespace Sys2Proof.Machine

/-- A request is current and with its block. -/
def State.hasHanded (s : State) : Prop := ∃ m, s.link.current = some ⟨m, .handed⟩

/-- The pieces of work of the part, each with what holds where it is done, keep `P`. -/
structure Keeps (P : State → Prop) : Prop where
  -- the link
  answer : ∀ s r, s.hasHanded → P s → P (s.answer r)
  arrive : ∀ s m, P s → P (s.arrive m)
  receiveByte : ∀ s b, P s → P (s.receiveByte b)
  gap : ∀ s : State, P s → P ((s.setReceiver .hunting).setLinkFlag .framing)
  transmit : ∀ s h, P s → P (s.startTransmission h)
  endTransmission : ∀ (s : State) t, s.resetPin = false → s.link.transmitter = some t → P s → P (s.endTransmission t)
  raise : ∀ s c, P s → P (s.raise c)
  takeEntries : ∀ s n, s.hasHanded → P s → P (s.takeEntries n)
  clearReported : ∀ s, P s → P s.clearReported
  setMask : ∀ s m, P s → P { s with link := s.link.setMask m }
  -- jobs
  acceptJob : ∀ s p, s.hasHanded → passes (queueJobChecks p s) → P s → P (s.acceptJob (queuedJob p))
  cancel : ∀ (s : State) tag j, (s.jobs.live.find? fun j => decide (j.tag = tag)) = some j → P s →
    P (s.endJob .cancelled j)
  -- planes and curves
  definePlane : ∀ s sel x base limit width, Selector.ofWire sel = some x → (x.isReel && s.reel.isNone) = false →
    passes (definePlaneChecks x base limit width s) → P s →
    P { s with planes := Table.put s.planes x.wire ⟨base.toNat, limit.toNat, width.toNat, 0, 0⟩ }
  undefinePlane : ∀ s x, s.hasHanded → passes (freePlaneChecks x s) → P s →
    P { s with planes := Table.erase s.planes x.wire }
  rewindPlane : ∀ s x, s.hasHanded → passes (freePlaneChecks x s) → P s →
    P { s with planes := Table.modify s.planes x.wire fun p => { p with fill := 0 } }
  claimWrite : ∀ s x line count words, s.hasHanded → passes (lineDataChecks x line count s) → P s →
    P (State.claimWrite x line.toNat words s)
  beginCurve : ∀ s n, n < 16 → passes (freeCurveChecks n s) → P s →
    P { s with curves := Table.put s.curves n ⟨false, Rgb.same [], 0⟩ }
  curveData : ∀ s n ch es, (Table.get s.curves n).any (fun c => !c.ready) = true → P s →
    P { s with curves := Table.modify s.curves n (CurveSet.load ch es) }
  commitCurve : ∀ s n c, Table.get s.curves n = some c → c.ready = false → P s →
    P { s with curves := Table.put s.curves n { c with ready := true } }
  discardCurve : ∀ s n, passes (freeCurveChecks n s) → P s → P { s with curves := Table.erase s.curves n }
  placement : ∀ s x, P s → P { s with placement := x }
  -- runs
  beginRun : ∀ s mode leadIn m l, s.resetPin = false → passes (startRunChecks mode leadIn s) → P s →
    P { s with run := { s.run with state := .running, mode := m, leadIn := l, pendingStop := .none } }
  between : ∀ s : State, s.resetPin = false → s.run.state = .running → P s → P s.between
  pendingStop : ∀ s x, s.run.state ≠ .stopped → P s → P { s with run := { s.run with pendingStop := x } }
  halt : ∀ s r, P s → P (s.halt r)
  spoil : ∀ (s : State) c l ch, s.seq.phase = .exposing → P s → P (s.spoil c l ch)
  pause : ∀ s, s.run.state = .running → P s → P { s with run := { s.run with state := .pausing } }
  rest : ∀ s : State, s.run.state = .pausing → P s → P s.rest
  resume : ∀ s l, s.run.state = .pausing ∨ s.run.state = .paused → s.resetPin = false → P s →
    P { s with run := { s.run with state := .running, leadIn := l } }
  leadTimer : ∀ s, P s → P { s with seq := { s.seq with leadTimer := none } }
  -- film
  openReel : ∀ s p, passes (openReelChecks p s) → P s →
    P { s with
      reel := some ⟨p.capacity.toNat, p.perforations.toNat, p.lines.toNat, p.width.toNat, p.offset.toNat⟩
      transport := { s.transport with position := p.start.toNat }
      planes := dropReelPlanes s.planes }
  closeReel : ∀ s, s.hasHanded → passes (closeReelChecks s) → P s →
    P { s.flush with planes := dropReelPlanes s.flush.planes, reel := none }
  registerGate : ∀ s g, s.transport.state = .opened → P s →
    P { s with transport := s.transport.startSettle (.registerGate g) }
  timing : ∀ s a b, P s → P { s with transport := { s.transport with timeout := a, settle := b } }
  clearTransport : ∀ s (b : Bool), s.transport.state.isFault = true → P s →
    P { s with transport := { s.transport with state := if b = true then .opened else .empty } }
  advance : ∀ s count, s.hasHanded → passes (advanceFramesChecks count s) → P s →
    P (s.await.nextPullDown ⟨countOf count, 0⟩)
  perf : ∀ s n, s.transport.state = .advancing → P s → P { s with transport := { s.transport with perfs := n } }
  settle : ∀ s, s.transport.state = .advancing → P s → P { s with transport := s.transport.startSettle .pullDown }
  fault : ∀ s c, P s → P (s.enterTransportFault c)
  registered : ∀ s, s.transport.state = .settling → s.transport.settleEnds = some .pullDown → P s →
    P (State.seriesRegistered { s with transport :=
      { s.transport with
        state := .registered
        settleTimer := none
        settleEnds := none
        position := s.transport.position + 1
        gate := .fresh } })
  gateRegistered : ∀ s g, s.transport.state = .settling → P s →
    P { s with transport := { s.transport with state := .registered, settleTimer := none, settleEnds := none, gate := g } }
  passBlank : ∀ s : State, s.resetPin = false → P s → P s.passBlank
  filmIn : ∀ s, s.transport.state = .empty → P s → P { s with transport := { s.transport with state := .opened } }
  setLevels : ∀ (s : State) (l : Lines), (l.interlock = false → s.pins.levels.interlock = false) → P s → P (s.setLevels l)
  -- scan
  scan : ∀ s x, P s → P { s with scan := x }
  -- lasers and monitor
  enable : ∀ s mask, passes (enableLasersChecks mask s) → P s →
    P { s with
      lasers := Rgb.zip (fun f st => f st)
        (Rgb.zip enabled ((channelMaskOf mask).getD (Rgb.same false)) s.pins.levels.laserReady) s.lasers }
  disable : ∀ s l, s.run.state = .stopped → P s → P { s with lasers := l }
  interlockOpens : ∀ (s : State) l, s.resetPin = false → P s → P (interlockEffect false (s.setLevels l))
  laserReady : ∀ s a b, P s → P (laserReadyEffect a b s)
  targets : ∀ s p, P s → P { s with monitor := ⟨some p, s.monitor.channels.map MonitorChannel.retarget⟩ }
  readMonitor : ∀ s, P s →
    P { s with monitor := { s.monitor with channels := s.monitor.channels.map fun c => { c with isFresh := false } } }
  clockLost : ∀ s ch, P s → P (clockLost ch s)
  clockReturn : ∀ s ch, P s → P (clockReturn ch s)
  reading : ∀ s p o, s.seq.phase = .exposing → P s → P (State.takeReadings p o s)
  -- frames
  cutLine : ∀ s e, s.seq.phase = .exposing → P s → P (cutLine e s)
  beginExposing : ∀ s : State, s.seq.phase = .preparing → s.mayExpose = true → P s → P s.beginExposing
  nextLine : ∀ s n, s.seq.phase = .exposing → P s → P { s with seq := { s.seq with lineCounter := n } }
  takeSet : ∀ s line facet reel j set rest, s.seq.phase = .exposing → s.head = some j → s.reel = some reel →
    s.seq.queue = set :: rest → P s →
    P (layLine line facet reel j.work set.rows { s with seq := { s.seq with queue := rest } }).prefetch
  flashLine : ∀ s line facet reel work, s.seq.phase = .exposing → s.reel = some reel → P s →
    P (layLine line facet reel work [] s)
  cleanEnd : ∀ s : State, s.resetPin = false → s.seq.phase = .exposing → P s → P s.cleanEnd
  readComplete : ∀ s, P s → P (readComplete s)
  writeComplete : ∀ s, P s → P (writeComplete s)
  -- resets
  reset : ∀ s : State, P s →
    P (State.afterReset true s.link.rate s.link.hrdy s.pins.levels (s.freeEpoch + 1) s.pending)
  release : ∀ s r, s.resetPin = true → P s → P { s with resetPin := false, link := { s.link with rate := r } }
  levelsInReset : ∀ (s : State) l, s.resetPin = true → P s →
    P { s with pins := ⟨l, Lines.none⟩, transport := Transport.reset l.filmPresent }

namespace Keeps

variable {P : State → Prop} {s t : State}

theorem hasHanded_congr (h : t.link.current = s.link.current) (hs : s.hasHanded) : t.hasHanded := by
  obtain ⟨m, hm⟩ := hs; exact ⟨m, h.trans hm⟩

@[simp] theorem raise_current (l : Link) (c : FlagClass) : (l.raise c).current = l.current := by
  unfold Link.raise; split <;> rfl

@[simp] theorem halt_current (s : State) (r : HaltReason) : (s.halt r).link.current = s.link.current :=
  raise_current _ _

@[simp] theorem spoil_current (s : State) (c : SpoilCause) (l : Nat) (ch : Option Channel) :
    (s.spoil c l ch).link.current = s.link.current := halt_current _ _

@[simp] theorem actOnStop_current (s : State) : s.actOnStop.link.current = s.link.current := by
  unfold State.actOnStop; split
  · simp
  · split <;> (try split) <;> simp

theorem accept (K : Keeps P) (items : List Byte) (hh : s.hasHanded) (h : P s) : P (s.accept items) :=
  K.answer s _ hh h

/-- The examination of a request. -/
theorem examine (K : Keeps P) {checks : List Check} {effect : State → State} (hh : s.hasHanded) (hp : P s)
    (he : passes checks → P (effect s)) : P (s.examine checks effect) :=
  examine_keeps (fun r => K.answer s r hh) (fun h _ => he h) hp

/-- A request whose block keeps `P`. -/
theorem request (K : Keeps P) {i : Instr} {block : State → State} (hp : P s) (h : carryOut i block s = .next t)
    (hb : ∀ u : State, u.resetPin = false → u.hasHanded → P u → P (block u)) : P t :=
  carryOut_keeps (fun m => K.arrive s m) hb hp h

theorem withPlane (K : Keeps P) {sel : Half} {block : Selector → State → State} (hh : s.hasHanded) (hp : P s)
    (hb : ∀ x, Selector.ofWire sel = some x → (x.isReel && s.reel.isNone) = false → P (block x s)) :
    P (withPlane sel block s) := by
  unfold Machine.withPlane
  split
  · exact K.answer s _ hh hp
  · rename_i x hx
    cases hc : x.isReel && s.reel.isNone with
    | true => simpa using K.answer s _ hh hp
    | false => simpa using hb x hx hc

theorem withSet (K : Keeps P) {set : Byte} {block : Nat → State → State} (hh : s.hasHanded) (hp : P s)
    (hb : set.toNat < 16 → P (block set.toNat s)) : P (withSet set block s) := by
  unfold Machine.withSet
  split
  · exact K.answer s _ hh hp
  · exact hb (by simp only [Config.curveSets] at *; omega)

theorem meetFault (K : Keeps P) (c : SpoilCause) (ch : Option Channel) (hp : P s) : P (s.meetFault c ch) := by
  unfold State.meetFault
  split
  · exact K.spoil s _ _ _ ‹_› hp
  · exact K.halt s _ hp
  · split
    · exact hp
    · exact K.halt s _ hp

theorem driveLine (K : Keeps P) (line facet : Nat) (hx : s.seq.phase = .exposing) (hp : P s) :
    P (s.driveLine line facet) := by
  unfold State.driveLine
  split
  · rename_i j reel hj hr
    split
    · split
      · exact K.spoil s _ _ _ hx hp
      · exact K.takeSet s _ _ _ j _ _ hx hj hr ‹_› hp
    · exact K.flashLine s _ _ _ _ hx hr hp
    · exact hp
  · exact hp

theorem facetSync (K : Keeps P) (k e : Nat) (h0 : s.resetPin = false) (hp : P s) : P (s.facetSync k e) := by
  simp only [State.facetSync]
  split
  · exact hp
  · split
    · exact K.driveLine _ _ rfl (K.beginExposing s ‹_› ‹_› hp)
    · exact hp
  · rename_i hx
    have h1 := K.cutLine s e hx hp
    have hx1 : (Machine.cutLine e s).seq.phase = .exposing := by
      unfold Machine.cutLine; split <;> exact hx
    split
    · exact K.driveLine _ _ hx1 (K.nextLine _ _ hx1 h1)
    · exact K.cleanEnd _ (by simpa using h0) hx1 h1

theorem loseLock (K : Keeps P) (c : LossCause) (hp : P s) : P (s.loseLock c) :=
  K.raise _ _ (K.meetFault _ _ (K.scan s _ hp))

theorem actOnStop (K : Keeps P) (hp : P s) : P s.actOnStop := by
  unfold State.actOnStop
  split
  · exact K.halt _ _ hp
  · split
    · exact hp
    · split
      · exact K.halt _ _ hp
      · exact hp
    · split
      · exact hp
      · exact K.halt _ _ hp
    · split
      · exact K.spoil _ _ _ _ ‹_› hp
      · exact K.halt _ _ hp

theorem receiveBytes (K : Keeps P) (bytes : List Byte) (hp : P s) : P (s.receiveBytes bytes) := by
  induction bytes generalizing s with
  | nil => exact hp
  | cons b bs ih => exact ih (K.receiveByte s b hp)

theorem failCalibration (K : Keeps P) (o : CalOutcome) (hp : P s) : P (s.failCalibration o) :=
  K.raise _ _ (K.scan s _ hp)

theorem lineChange (K : Keeps P) {levels : Lines} {effect : State → State} (hp : P s)
    (he : s.resetPin = false → levels ≠ s.pins.levels → P (effect (s.setLevels levels)))
    (h : lineChange levels effect s = .next t) : P t := by
  rcases lineChange_cases levels effect s with ⟨h0, h'⟩ | ⟨_, _, h'⟩ | ⟨h0, h1, h'⟩ <;> rw [h'] at h <;>
    injection h with h <;> subst h
  · exact K.levelsInReset s _ h0 hp
  · exact hp
  · exact he h0 h1

/-- A property that every piece of work keeps is kept by every command. -/
theorem exec (K : Keeps P) {c : Instr} (hp : P s) (h : Machine.exec c s = .next t) : P t := by
  cases c <;> simp only [Machine.exec] at h
  case queueJob rt p =>
    refine K.request hp h fun u h0 hh hu => K.examine hh hu fun hc => ?_
    have ha := K.acceptJob u p hh hc hu
    split
    · rename_i hw
      refine K.between _ (by simpa [State.acceptJob] using h0) ?_ ha
      simp only [State.isWaiting, decide_eq_true_eq] at hw
      simpa [State.acceptJob] using hw.1
    · exact ha
  case cancelJob rt tag =>
    refine K.request hp h fun u h0 hh hu => ?_
    unfold cancelJobBlock; split
    · exact K.answer _ _ hh hu
    · split
      · exact K.answer _ _ hh hu
      · exact K.accept _ (hasHanded_congr (by simp) hh) (K.cancel u _ _ ‹_› hu)
  case queryJob =>
    refine K.request hp h fun u h0 hh hu => ?_
    unfold queryJobBlock; split <;> exact K.answer _ _ hh hu
  case definePlane rt sel base limit width =>
    refine K.request hp h fun u h0 hh hu => K.withPlane hh hu fun x hx hr => K.examine hh hu fun hc => ?_
    exact K.accept _ hh (K.definePlane u sel x base limit width hx hr hc hu)
  case undefinePlane =>
    refine K.request hp h fun u h0 hh hu => K.withPlane hh hu fun x hx hr => K.examine hh hu fun hc => ?_
    exact K.accept _ hh (K.undefinePlane u x hh hc hu)
  case rewindPlane =>
    refine K.request hp h fun u h0 hh hu => K.withPlane hh hu fun x hx hr => K.examine hh hu fun hc => ?_
    exact K.accept _ hh (K.rewindPlane u x hh hc hu)
  case lineData =>
    refine K.request hp h fun u h0 hh hu => K.withPlane hh hu fun x hx hr => K.examine hh hu fun hc => ?_
    exact K.claimWrite u x _ _ _ hh hc hu
  case queryPlane =>
    exact K.request hp h fun u h0 hh hu => K.withPlane hh hu fun x hx hr => K.answer _ _ hh hu
  case beginCurve =>
    refine K.request hp h fun u h0 hh hu => K.withSet hh hu fun hn => K.examine hh hu fun hc => ?_
    exact K.accept _ hh (K.beginCurve u _ hn hc hu)
  case curveData =>
    refine K.request hp h fun u h0 hh hu => K.withSet hh hu fun hn => K.examine hh hu fun hc => ?_
    refine K.accept _ hh (K.curveData u _ _ _ ?_ hu)
    have := hc _ (List.mem_cons_of_mem _ (List.mem_cons_of_mem _ (List.mem_cons_self ..)))
    simpa using this
  case commitCurve =>
    refine K.request hp h fun u h0 hh hu => K.withSet hh hu fun hn => ?_
    split
    · exact K.answer _ _ hh hu
    · rename_i c hc
      refine K.examine hh hu fun hk => ?_
      refine K.accept _ hh (K.commitCurve u _ c hc ?_ hu)
      exact hk (c.ready, .notReady, 0xFFFF) (by simp)
  case discardCurve =>
    refine K.request hp h fun u h0 hh hu => K.withSet hh hu fun hn => K.examine hh hu fun hc => ?_
    exact K.accept _ hh (K.discardCurve u _ hc hu)
  case queryCurve =>
    exact K.request hp h fun u h0 hh hu => K.withSet hh hu fun hn => K.answer _ _ hh hu
  case setDriveOptions =>
    exact K.request hp h fun u h0 hh hu => K.examine hh hu fun hc => K.accept _ hh (K.placement u _ hu)
  case startRun =>
    refine K.request hp h fun u h0 hh hu => K.examine hh hu fun hc => ?_
    exact K.between _ h0 rfl (K.accept _ hh (K.beginRun u _ _ _ _ h0 hc hu))
  case stopRun =>
    refine K.request hp h fun u h0 hh hu => K.examine hh hu fun hc => ?_
    have hr : u.run.state ≠ .stopped := by
      have := hc (decide (u.run.state = .stopped), .busy, 0) (by simp)
      simpa using this
    exact K.accept _ (hasHanded_congr (by simp) hh) (K.actOnStop (K.pendingStop u _ hr hu))
  case pauseRun =>
    refine K.request hp h fun u h0 hh hu => K.examine hh hu fun hc => ?_
    have hr : u.run.state = .running := by
      have := hc (decide (u.run.state ≠ .running), .busy, 0) (by simp)
      simpa using this
    have h1 := K.pause u hr hu
    simp only [State.pauseRun]
    split
    · exact K.accept _ hh h1
    · exact K.accept _ hh (K.rest _ rfl h1)
  case resumeRun =>
    refine K.request hp h fun u h0 hh hu => ?_
    simp only [resumeRunBlock]
    split
    · exact K.answer _ _ hh hu
    · exact K.answer _ _ hh hu
    · exact K.examine hh hu fun hc => K.accept _ hh (K.resume u _ (.inl ‹_›) h0 hu)
    · exact K.examine hh hu fun hc => K.between _ h0 rfl (K.accept _ hh (K.resume u _ (.inr ‹_›) h0 hu))
  case openReel =>
    exact K.request hp h fun u h0 hh hu => K.examine hh hu fun hc => K.accept _ hh (K.openReel u _ hc hu)
  case closeReel =>
    refine K.request hp h fun u h0 hh hu => K.examine hh hu fun hc => ?_
    refine K.accept _ (hasHanded_congr ?_ hh) (K.closeReel u hh hc hu)
    have : ∀ (l : List Job) (w : State), (l.foldl (fun (t : State) (j : Job) => t.endJob .flushed j) w).link = w.link := by
      intro l; induction l with
      | nil => intro w; rfl
      | cons j l ih => intro w; rw [List.foldl_cons, ih]; simp
    exact congrArg Link.current (this u.jobs.live u)
  case registerGate =>
    refine K.request hp h fun u h0 hh hu => K.examine hh hu fun hc => K.accept _ hh (K.registerGate u _ ?_ hu)
    have := hc (decide (u.transport.state ≠ .opened), .busy, 0) (by simp [registerGateChecks])
    simpa using this
  case advanceFrames =>
    exact K.request hp h fun u h0 hh hu => K.examine hh hu fun hc => K.advance u _ hh hc hu
  case clearTransport =>
    refine K.request hp h fun u h0 hh hu => K.examine hh hu fun hc => K.accept _ hh (K.clearTransport u _ ?_ hu)
    have := hc (!u.transport.state.isFault, .busy, 0) (by simp)
    simpa using this
  case setTransportTiming =>
    exact K.request hp h fun u h0 hh hu => K.examine hh hu fun hc => K.accept _ hh (K.timing u _ _ hu)
  case setScanGeometry =>
    exact K.request hp h fun u h0 hh hu => K.examine hh hu fun hc =>
      K.accept _ (hasHanded_congr (raise_current _ _) hh) (K.raise _ _ (K.scan u _ hu))
  case loadFacetCorrections =>
    exact K.request hp h fun u h0 hh hu => K.examine hh hu fun hc => K.accept _ hh (K.scan u _ hu)
  case calibrateScan =>
    exact K.request hp h fun u h0 hh hu => K.examine hh hu fun hc =>
      K.accept _ (hasHanded_congr (raise_current _ _) hh) (K.raise _ _ (K.scan u _ hu))
  case enableLasers =>
    exact K.request hp h fun u h0 hh hu => K.examine hh hu fun hc => K.accept _ hh (K.enable u _ hc hu)
  case disableLasers =>
    refine K.request hp h fun u h0 hh hu => K.examine hh hu fun hc => K.accept _ hh (K.disable u _ ?_ hu)
    have := hc (decide (u.run.state ≠ .stopped), .busy, 0) (by simp)
    simpa using this
  case setPowerTargets =>
    exact K.request hp h fun u h0 hh hu => K.examine hh hu fun hc => K.accept _ hh (K.targets u _ hu)
  case readMonitor =>
    exact K.request hp h fun u h0 hh hu => K.accept _ hh (K.readMonitor u hu)
  case takeSpoilEntries =>
    exact K.request hp h fun u h0 hh hu => K.examine hh hu fun hc => K.takeEntries u _ hh hu
  case getStatus =>
    exact K.request hp h fun u h0 hh hu => K.accept _ hh (K.clearReported u hu)
  case setNotices =>
    refine K.request hp h fun u h0 hh hu => K.examine hh hu fun hc => K.accept _ (hasHanded_congr ?_ hh) (K.setMask u _ hu)
    simp only [Link.setMask, Link.dropDisabled]
    split <;> split <;> split <;> rfl
  case softReset =>
    exact K.request hp h fun u h0 hh hu => K.accept _ hh hu
  case messageReceived bytes => exact event_keeps (fun _ hu => K.receiveBytes bytes hu) hp h
  case interByteGapTimeout =>
    refine event_keeps (fun _ hu => ?_) hp h
    unfold gapTimeout; split
    · exact hu
    · exact K.gap _ hu
  case transmitStart => exact event_keeps (fun _ hu => K.transmit _ _ hu) hp h
  case messageTransmitted =>
    refine event_keeps (fun h0 hu => ?_) hp h
    unfold messageTransmitted; split
    · exact K.endTransmission _ _ h0 ‹_› hu
    · exact hu
  case hardwareReset =>
    simp only [execHardwareReset] at h; injection h with h; subst h; exact K.reset s hp
  case resetRelease =>
    simp only [execResetRelease] at h; injection h with h; subst h; split
    · exact K.release s _ ‹_› hp
    · exact hp
  case sosPulse elapsed =>
    refine event_keeps (fun h0 hu => ?_) hp h
    have h1 := K.scan s (s.scan.measure elapsed) hu
    simp only [sosPulse]
    split
    · exact h1
    · exact h1
    · split
      · exact K.scan s _ hu
      · exact h1
    · simp only [State.supervise]
      split
      · exact K.loseLock _ (K.scan s _ hu)
      · split <;> split <;>
          first
          | exact K.loseLock _ (K.scan s _ hu)
          | (refine K.facetSync _ _ ?_ ?_
             · exact h0
             · exact K.scan s _ hu)
  case indexPulse =>
    refine event_keeps (fun h0 hu => ?_) hp h
    simp only [indexPulse]
    split
    · exact hu
    · exact hu
    · split
      · simp only [State.calibrationIndex]
        split
        · split <;> exact K.scan _ _ hu
        · split
          · simp only [State.judgeCalibration]
            split
            · exact K.failCalibration _ hu
            · split
              · exact K.failCalibration _ hu
              · exact K.raise _ _ (K.scan _ _ hu)
          · exact K.scan _ _ hu
      · exact hu
    · split
      · exact K.scan _ _ hu
      · exact K.loseLock _ hu
  case calibrationIndexDeadline =>
    refine event_keeps (fun h0 hu => ?_) hp h
    unfold calibrationDeadline; split <;> first | exact hu | exact K.failCalibration _ hu
  case sosGapWatchdogExpiry =>
    refine event_keeps (fun h0 hu => ?_) hp h
    unfold calibrationDeadline; split <;> first | exact hu | exact K.failCalibration _ hu
  case noSignalWatchdogExpiry =>
    refine event_keeps (fun h0 hu => ?_) hp h
    unfold noSignalExpiry; split <;> first | exact hu | exact K.loseLock _ hu
  case perfPulse =>
    refine event_keeps (fun h0 hu => ?_) hp h
    simp only [perfPulse]
    split
    · rename_i ha
      have h1 := K.perf s (s.transport.perfs + 1) ha hu
      split
      · exact K.settle { s with transport := { s.transport with perfs := s.transport.perfs + 1 } } ha h1
      · exact h1
    · exact hu
  case pullDownTimerExpiry =>
    refine event_keeps (fun h0 hu => ?_) hp h
    unfold pullDownTimerExpiry; split
    · exact K.fault _ _ hu
    · exact hu
  case settleTimerExpiry =>
    refine event_keeps (fun h0 hu => ?_) hp h
    unfold settleTimerExpiry; split
    · rename_i ha
      split
      · simp only [State.register]
        split
        · refine K.passBlank _ ?_ (K.registered s ha ‹_› hu)
          simp only [State.seriesRegistered, State.nextPullDown]
          split
          · exact h0
          · split
            · exact h0
            · split <;> exact h0
        · exact K.passBlank _ h0 (K.gateRegistered s _ ha hu)
        · exact K.passBlank _ h0 (K.gateRegistered s s.transport.gate ha hu)
      · exact K.fault _ _ hu
    · exact hu
  case filmPresentChange =>
    refine K.lineChange hp (fun h0 hl => ?_) h
    have h1 := K.setLevels s { s.pins.levels with filmPresent := ‹Bool› } id hp
    unfold filmPresentEffect; split
    · exact K.filmIn _ ‹_› h1
    all_goals first | exact K.fault _ _ h1 | exact h1
  case tensionOkChange =>
    refine K.lineChange hp (fun h0 hl => ?_) h
    have h1 := K.setLevels s { s.pins.levels with tensionOk := ‹Bool› } id hp
    unfold tensionOkEffect; split <;> first | exact K.fault _ _ h1 | exact h1
  case gateClosedChange =>
    refine K.lineChange hp (fun h0 hl => ?_) h
    have h1 := K.setLevels s { s.pins.levels with gateClosed := ‹Bool› } id hp
    unfold gateClosedEffect; split <;> first | exact K.fault _ _ h1 | exact h1
  case endSensorChange =>
    exact K.lineChange hp (fun h0 hl => K.setLevels s { s.pins.levels with endSensor := ‹Bool› } id hp) h
  case interlockChange level =>
    refine K.lineChange hp (fun h0 hl => ?_) h
    cases level
    · exact K.interlockOpens s _ h0 hp
    · exact K.setLevels s _ (by simp) hp
  case laserReadyChange =>
    exact K.lineChange hp
      (fun h0 hl => K.laserReady _ _ _ (K.setLevels s { s.pins.levels with laserReady := ‹Rgb Bool› } id hp)) h
  case monitorClockLost => exact event_keeps (fun _ hu => K.clockLost _ _ hu) hp h
  case powerReading edges =>
    refine event_keeps (fun h0 hu => ?_) hp h
    simp only [powerReading]; split
    · rename_i p _ hx
      have h1 := K.reading s p (edges.map (filterCount p.osr s.pulseLength)) hx hu
      have hph : ∀ (ch : Channel) o (w : State), (w.takeReading p ch o).seq = w.seq := by
        intro ch o w; simp only [State.takeReading]; split
        · split <;> simp
        · rfl
      split
      · refine K.spoil _ _ _ _ ?_ h1
        simp only [State.takeReadings, hph, hx]
      · exact h1
    all_goals exact hu
  case leadInTimerExpiry =>
    refine event_keeps (fun h0 hu => ?_) hp h
    unfold leadInExpiry; split
    · split
      · exact K.halt _ _ hu
      · split
        · exact K.halt _ _ hu
        · exact K.leadTimer _ hu
    · exact hu
  case prefetchReadComplete => exact event_keeps (fun _ hu => K.readComplete _ hu) hp h
  case lineDataWriteComplete => exact event_keeps (fun _ hu => K.writeComplete _ hu) hp h
  case frameCleanEnd =>
    refine event_keeps (fun h0 hu => ?_) hp h
    unfold frameCleanEnd; split
    · rename_i hx; exact K.cleanEnd _ h0 hx.1 hu
    · exact hu
  case monitorClockReturn => exact event_keeps (fun _ hu => K.clockReturn _ _ hu) hp h

/-- So is a step, where what is kept does not rest on the queue. -/
theorem step (K : Keeps P) (hq : ∀ (s : State) q, P s → P { s with pending := q }) (hp : P s)
    (h : Machine.step s = .next t) : P t := by
  unfold Machine.step at h
  split at h
  · injection h with h; exact h ▸ hp
  · exact K.exec (hq s _ hp) h

end Keeps

end Sys2Proof.Machine
end

