-- ==== Sys2Proof/Laws/Wire.lean ====
section
/-! SUPPORT. The byte order of the wire: fields and lists of fields are read back from the bytes they are
sent as (R190), how many bytes they take, and the bits of bytes on a data pair (R176). -/

namespace Sys2Proof

@[simp] theorem halfOf_bytes (h : Half) : halfOf (loByte h) (hiByte h) = h := by
  unfold halfOf loByte hiByte
  apply BitVec.eq_of_getLsbD_eq
  intro i hi
  simp only [BitVec.getLsbD_append, BitVec.getLsbD_extractLsb']
  by_cases h8 : i < 8
  · simp [h8]
  · simp [h8, show i - 8 < 8 by omega, show 8 + (i - 8) = i by omega]

@[simp] theorem quadOf_bytes (q : Quad) :
    quadOf (q.extractLsb' 0 8) (q.extractLsb' 8 8) (q.extractLsb' 16 8) (q.extractLsb' 24 8) = q := by
  unfold quadOf
  apply BitVec.eq_of_getLsbD_eq
  intro i hi
  simp only [BitVec.getLsbD_append, BitVec.getLsbD_extractLsb']
  by_cases h8 : i < 8
  · simp [h8, show i < 24 by omega, show i < 16 by omega]
  · by_cases h16 : i < 16
    · simp [h8, h16, show i < 24 by omega, show i - 8 < 8 by omega, show 8 + (i - 8) = i by omega]
    · by_cases h24 : i < 24
      · simp [h16, h24, show i - 16 < 8 by omega, show 16 + (i - 16) = i by omega]
      · simp [h24, show i - 24 < 8 by omega, show 24 + (i - 24) = i by omega]

@[simp] theorem halfBytes_length (h : Half) : (halfBytes h).length = 2 := rfl

@[simp] theorem quadBytes_length (q : Quad) : (quadBytes q).length = 4 := rfl

@[simp] theorem entryBytes_length (e : WireEntry) : (entryBytes e).length = 3 := rfl

@[simp] theorem rgbHalfBytes_length (x : Rgb Half) : (rgbHalfBytes x).length = 6 := rfl

@[simp] theorem halves_length (l : List Half) : (l.flatMap halfBytes).length = 2 * l.length := by
  induction l with
  | nil => rfl
  | cons x l ih => simp [List.flatMap_cons, ih]; omega

@[simp] theorem entries_length (l : List WireEntry) : (l.flatMap entryBytes).length = 3 * l.length := by
  induction l with
  | nil => rfl
  | cons x l ih => simp [List.flatMap_cons, ih]; omega

/-- A list of two-byte fields is read back. -/
@[simp] theorem halvesOf_bytes (l : List Half) : halvesOf (l.flatMap halfBytes) = some l := by
  induction l with
  | nil => rfl
  | cons x l ih =>
    show halvesOf (loByte x :: hiByte x :: l.flatMap halfBytes) = _
    simp [halvesOf, ih]

/-- A list of drive entries is read back. -/
@[simp] theorem entriesOf_bytes (l : List WireEntry) : entriesOf (l.flatMap entryBytes) = some l := by
  induction l with
  | nil => rfl
  | cons x l ih =>
    show entriesOf (loByte x.level :: hiByte x.level :: x.duty :: l.flatMap entryBytes) = _
    simp [entriesOf, ih]

/-- The two-byte count at offset 4 of a payload that begins with three two-byte fields. -/
@[simp] theorem countAt4_halves (a b c : Half) (rest : List Byte) :
    countAt4 (halfBytes a ++ halfBytes b ++ halfBytes c ++ rest) = c.toNat := by
  simp [countAt4, halfBytes]

/-! ## Bits on a data pair (R176) -/

/-- The bits of a byte, by number. -/
theorem byteBits_get {k : Nat} (b : Byte) (h : k < 8) : (byteBits b)[k]? = some (b.getLsbD k) := by
  match k, h with
  | 0, _ | 1, _ | 2, _ | 3, _ | 4, _ | 5, _ | 6, _ | 7, _ => rfl

/-- The bits of bytes, by number: bit `k % 8` of byte `k / 8`. -/
theorem lineBits_get (bytes : List Byte) (k : Nat) :
    (lineBits bytes)[k]? = (bytes[k / 8]?).map fun b => b.getLsbD (k % 8) := by
  induction bytes generalizing k with
  | nil => simp [lineBits]
  | cons b rest ih =>
    have hl : (byteBits b).length = 8 := rfl
    show (byteBits b ++ lineBits rest)[k]? = _
    by_cases hk : k < 8
    · rw [List.getElem?_append_left (by omega), byteBits_get b hk]
      simp [show k / 8 = 0 by omega, Nat.mod_eq_of_lt hk]
    · rw [List.getElem?_append_right (by omega), hl, ih]
      rw [show k / 8 = (k - 8) / 8 + 1 by omega, show k % 8 = (k - 8) % 8 by omega]
      rfl

/-- Bytes are read back from the bits they are sent as. -/
@[simp] theorem lineBytes_lineBits (bytes : List Byte) : lineBytes (lineBits bytes) = bytes := by
  induction bytes with
  | nil => rfl
  | cons b rest ih =>
    have h : (BitVec.ofBoolListLE (byteBits b) : BitVec 8) = b := by
      apply BitVec.eq_of_getLsbD_eq
      intro i hi
      rw [BitVec.getLsbD_ofBoolListLE, List.getD_eq_getElem?_getD, byteBits_get b hi]
      rfl
    show (BitVec.ofBoolListLE (byteBits b) : BitVec 8) :: lineBytes (lineBits rest) = _
    rw [ih, h]
    rfl

end Sys2Proof
end

