-- ==== Sys2Proof/Laws/PerInstr.lean ====
section
/-! SUPPORT. A statement made of every command, command by command: a well-formed request is sent as a
message with the payload length its type asks for, within the longest payload (R177, R181, R190); a
command that is no request is sent as no message. -/

namespace Sys2Proof.Laws.Requests

/-- The message a well-formed command is sent as has the payload length the link expects of its type, so
that the link hands it to the block that owns it (R181). -/
def Statement (i : Instr) : Prop :=
  i.wellFormed = true → ∀ m, i.encode = some m →
    expectedLength m = some m.payload.length ∧ m.payload.length ≤ 8200

/-- A command that is sent as no message. -/
theorem noMessage {i : Instr} (h : i.encode = none) : Statement i := by
  intro _ m hm; rw [h] at hm; cases hm

theorem queueJob (rt : Byte) (p : QueueJobItems) : Statement (.queueJob rt p) := by
  intro _ m hm; cases hm; exact ⟨rfl, Nat.le_of_ble_eq_true rfl⟩
theorem cancelJob (rt : Byte) (tag : Half) : Statement (.cancelJob rt tag) := by
  intro _ m hm; cases hm; exact ⟨rfl, Nat.le_of_ble_eq_true rfl⟩
theorem queryJob (rt : Byte) (tag : Half) : Statement (.queryJob rt tag) := by
  intro _ m hm; cases hm; exact ⟨rfl, Nat.le_of_ble_eq_true rfl⟩
theorem definePlane (rt : Byte) (sel base limit width : Half) : Statement (.definePlane rt sel base limit width) := by
  intro _ m hm; cases hm; exact ⟨rfl, Nat.le_of_ble_eq_true rfl⟩
theorem undefinePlane (rt : Byte) (sel : Half) : Statement (.undefinePlane rt sel) := by
  intro _ m hm; cases hm; exact ⟨rfl, Nat.le_of_ble_eq_true rfl⟩
theorem rewindPlane (rt : Byte) (sel : Half) : Statement (.rewindPlane rt sel) := by
  intro _ m hm; cases hm; exact ⟨rfl, Nat.le_of_ble_eq_true rfl⟩
theorem lineData (rt : Byte) (sel line count : Half) (words : List Half) : Statement (.lineData rt sel line count words) := by
  intro h m hm
  simp only [Instr.wellFormed, Config.maxPayload, Bool.and_eq_true, decide_eq_true_eq] at h
  cases hm
  constructor
  · simp [expectedLength, halfBytes, countAt4, h.1]; omega
  · have h2 := of_decide_eq_true h.2; simp; omega
theorem queryPlane (rt : Byte) (sel : Half) : Statement (.queryPlane rt sel) := by
  intro _ m hm; cases hm; exact ⟨rfl, Nat.le_of_ble_eq_true rfl⟩
theorem beginCurve (rt set : Byte) : Statement (.beginCurve rt set) := by
  intro _ m hm; cases hm; exact ⟨rfl, Nat.le_of_ble_eq_true rfl⟩
theorem curveData (rt set channel : Byte) (first count : Half) (entries : List WireEntry) : Statement (.curveData rt set channel first count entries) := by
  intro h m hm
  simp only [Instr.wellFormed, Config.maxPayload, Bool.and_eq_true, decide_eq_true_eq] at h
  cases hm
  constructor
  · simp [expectedLength, halfBytes, countAt4, h.1]; omega
  · have h2 := of_decide_eq_true h.2; simp; omega
theorem commitCurve (rt set : Byte) : Statement (.commitCurve rt set) := by
  intro _ m hm; cases hm; exact ⟨rfl, Nat.le_of_ble_eq_true rfl⟩
theorem discardCurve (rt set : Byte) : Statement (.discardCurve rt set) := by
  intro _ m hm; cases hm; exact ⟨rfl, Nat.le_of_ble_eq_true rfl⟩
theorem queryCurve (rt set : Byte) : Statement (.queryCurve rt set) := by
  intro _ m hm; cases hm; exact ⟨rfl, Nat.le_of_ble_eq_true rfl⟩
theorem setDriveOptions (rt placement : Byte) : Statement (.setDriveOptions rt placement) := by
  intro _ m hm; cases hm; exact ⟨rfl, Nat.le_of_ble_eq_true rfl⟩
theorem startRun (rt mode : Byte) (leadIn : Half) : Statement (.startRun rt mode leadIn) := by
  intro _ m hm; cases hm; exact ⟨rfl, Nat.le_of_ble_eq_true rfl⟩
theorem stopRun (rt mode : Byte) : Statement (.stopRun rt mode) := by
  intro _ m hm; cases hm; exact ⟨rfl, Nat.le_of_ble_eq_true rfl⟩
theorem pauseRun (rt : Byte) : Statement (.pauseRun rt) := by
  intro _ m hm; cases hm; exact ⟨rfl, Nat.le_of_ble_eq_true rfl⟩
theorem resumeRun (rt : Byte) (leadIn : Half) : Statement (.resumeRun rt leadIn) := by
  intro _ m hm; cases hm; exact ⟨rfl, Nat.le_of_ble_eq_true rfl⟩
theorem openReel (rt : Byte) (p : OpenReelItems) : Statement (.openReel rt p) := by
  intro _ m hm; cases hm; exact ⟨rfl, Nat.le_of_ble_eq_true rfl⟩
theorem closeReel (rt : Byte) : Statement (.closeReel rt) := by
  intro _ m hm; cases hm; exact ⟨rfl, Nat.le_of_ble_eq_true rfl⟩
theorem registerGate (rt gate : Byte) : Statement (.registerGate rt gate) := by
  intro _ m hm; cases hm; exact ⟨rfl, Nat.le_of_ble_eq_true rfl⟩
theorem advanceFrames (rt count : Byte) : Statement (.advanceFrames rt count) := by
  intro _ m hm; cases hm; exact ⟨rfl, Nat.le_of_ble_eq_true rfl⟩
theorem clearTransport (rt : Byte) : Statement (.clearTransport rt) := by
  intro _ m hm; cases hm; exact ⟨rfl, Nat.le_of_ble_eq_true rfl⟩
theorem setTransportTiming (rt : Byte) (timeout : Half) (settle : Byte) : Statement (.setTransportTiming rt timeout settle) := by
  intro _ m hm; cases hm; exact ⟨rfl, Nat.le_of_ble_eq_true rfl⟩
theorem setScanGeometry (rt : Byte) (p : GeometryItems) : Statement (.setScanGeometry rt p) := by
  intro _ m hm; cases hm; exact ⟨rfl, Nat.le_of_ble_eq_true rfl⟩
theorem loadFacetCorrections (rt count : Byte) (values : List Half) : Statement (.loadFacetCorrections rt count values) := by
  intro h m hm
  simp only [Instr.wellFormed, decide_eq_true_eq] at h
  cases hm
  constructor
  · simp [expectedLength, countAt0, h]; omega
  · simp; have := count.isLt; omega
theorem calibrateScan (rt : Byte) : Statement (.calibrateScan rt) := by
  intro _ m hm; cases hm; exact ⟨rfl, Nat.le_of_ble_eq_true rfl⟩
theorem enableLasers (rt mask : Byte) : Statement (.enableLasers rt mask) := by
  intro _ m hm; cases hm; exact ⟨rfl, Nat.le_of_ble_eq_true rfl⟩
theorem disableLasers (rt mask : Byte) : Statement (.disableLasers rt mask) := by
  intro _ m hm; cases hm; exact ⟨rfl, Nat.le_of_ble_eq_true rfl⟩
theorem setPowerTargets (rt : Byte) (p : PowerItems) : Statement (.setPowerTargets rt p) := by
  intro _ m hm; cases hm; exact ⟨rfl, Nat.le_of_ble_eq_true rfl⟩
theorem readMonitor (rt : Byte) : Statement (.readMonitor rt) := by
  intro _ m hm; cases hm; exact ⟨rfl, Nat.le_of_ble_eq_true rfl⟩
theorem takeSpoilEntries (rt count : Byte) : Statement (.takeSpoilEntries rt count) := by
  intro _ m hm; cases hm; exact ⟨rfl, Nat.le_of_ble_eq_true rfl⟩
theorem getStatus (rt : Byte) : Statement (.getStatus rt) := by
  intro _ m hm; cases hm; exact ⟨rfl, Nat.le_of_ble_eq_true rfl⟩
theorem setNotices (rt mask : Byte) : Statement (.setNotices rt mask) := by
  intro _ m hm; cases hm; exact ⟨rfl, Nat.le_of_ble_eq_true rfl⟩
theorem softReset (rt : Byte) : Statement (.softReset rt) := by
  intro _ m hm; cases hm; exact ⟨rfl, Nat.le_of_ble_eq_true rfl⟩
theorem messageReceived (bytes : List Byte) : Statement (.messageReceived bytes) := noMessage rfl
theorem interByteGapTimeout : Statement (.interByteGapTimeout) := noMessage rfl
theorem transmitStart (hrdy : Bool) : Statement (.transmitStart hrdy) := noMessage rfl
theorem messageTransmitted : Statement (.messageTransmitted) := noMessage rfl
theorem hardwareReset : Statement (.hardwareReset) := noMessage rfl
theorem resetRelease (rate1 rate0 : Bool) : Statement (.resetRelease rate1 rate0) := noMessage rfl
theorem sosPulse (elapsed : Nat) : Statement (.sosPulse elapsed) := noMessage rfl
theorem indexPulse : Statement (.indexPulse) := noMessage rfl
theorem calibrationIndexDeadline : Statement (.calibrationIndexDeadline) := noMessage rfl
theorem sosGapWatchdogExpiry : Statement (.sosGapWatchdogExpiry) := noMessage rfl
theorem noSignalWatchdogExpiry : Statement (.noSignalWatchdogExpiry) := noMessage rfl
theorem perfPulse : Statement (.perfPulse) := noMessage rfl
theorem pullDownTimerExpiry : Statement (.pullDownTimerExpiry) := noMessage rfl
theorem settleTimerExpiry : Statement (.settleTimerExpiry) := noMessage rfl
theorem filmPresentChange (level : Bool) : Statement (.filmPresentChange level) := noMessage rfl
theorem tensionOkChange (level : Bool) : Statement (.tensionOkChange level) := noMessage rfl
theorem gateClosedChange (level : Bool) : Statement (.gateClosedChange level) := noMessage rfl
theorem endSensorChange (level : Bool) : Statement (.endSensorChange level) := noMessage rfl
theorem interlockChange (level : Bool) : Statement (.interlockChange level) := noMessage rfl
theorem laserReadyChange (levels : Rgb Bool) : Statement (.laserReadyChange levels) := noMessage rfl
theorem monitorClockLost (channel : Channel) : Statement (.monitorClockLost channel) := noMessage rfl
theorem powerReading (edges : Rgb (List ClockEdge)) : Statement (.powerReading edges) := noMessage rfl
theorem leadInTimerExpiry : Statement (.leadInTimerExpiry) := noMessage rfl
theorem prefetchReadComplete : Statement (.prefetchReadComplete) := noMessage rfl
theorem lineDataWriteComplete : Statement (.lineDataWriteComplete) := noMessage rfl
theorem frameCleanEnd : Statement (.frameCleanEnd) := noMessage rfl
theorem monitorClockReturn (channel : Channel) : Statement (.monitorClockReturn channel) := noMessage rfl

end Sys2Proof.Laws.Requests
end

