-- ==== Sys2Proof/Laws/Requests.lean ====
section
/-! SUPPORT. How a request with its block is answered: the first check that fails is the refusal, and where
every check passes the effect follows; the selector and set-number checks the Plane Tables and the Curve
Memory begin with. -/

namespace Sys2Proof.Machine

variable {s t : State} {i : Instr} {m : Message}

/-- The refusal of a table whose first failing row is known. -/
theorem firstFailing_append {before : List Check} {code : RefusalCode} {d : Nat} {after : List Check}
    (h : passes before) : firstFailing (before ++ (true, code, d) :: after) = some (.refuse code d) := by
  induction before with
  | nil => simp [firstFailing]
  | cons x xs ih =>
    obtain ⟨b, c, e⟩ := x
    have hb : b = false := h (b, c, e) (by simp)
    subst hb
    simpa [firstFailing] using ih fun c hc => h c (by simp [hc])

/-- A table that passes has no refusal. -/
theorem firstFailing_passes {checks : List Check} (h : passes checks) : firstFailing checks = none := by
  induction checks with
  | nil => rfl
  | cons x xs ih =>
    obtain ⟨b, c, e⟩ := x
    have hb : b = false := h (b, c, e) (by simp)
    subst hb
    simpa [firstFailing] using ih fun c hc => h c (by simp [hc])

/-- A table passes exactly where none of its checks fails. -/
theorem passes_iff {checks : List Check} : passes checks ↔ firstFailing checks = none :=
  ⟨firstFailing_passes, firstFailing_none⟩

/-- The block's answer to a request that is with it. -/
theorem State.Handed.answer (h : s.Handed i m) (r : Reply) : s.answer r = s.answered m r := by
  obtain ⟨_, h1, _⟩ := h
  simp [State.answer, State.answered, h1]

/-- The acceptance of a request whose effects leave the current request in place. -/
theorem State.Handed.accept (h : s.Handed i m) (ht : t.link.current = s.link.current) (items : List Byte) :
    t.accept items = t.answered m (.accept items) := by
  obtain ⟨_, h1, _⟩ := h
  simp [State.accept, State.answer, State.answered, ht, h1]

/-- A request that is with its block is refused by its first failing check, and takes effect where none
fails. -/
theorem State.Handed.examined (h : s.Handed i m) {checks : List Check} {effect : State → State}
    (hx : exec i s = .next (s.examine checks effect)) :
    FirstRefusal i m s checks ∧ (passes checks → exec i s = .next (effect s)) := by
  refine ⟨fun before code d after hb hp => ?_, fun hp => ?_⟩
  · unfold Refused
    rw [hx, State.examine, hb, firstFailing_append hp]
    exact congrArg _ (h.answer _)
  · rw [hx, State.examine, firstFailing_passes hp]

/-- The examination by one row and the rest of a table. -/
theorem examine_cons (fails : Bool) (code : RefusalCode) (d : Nat) (checks : List Check) (effect : State → State)
    (s : State) : s.examine ((fails, code, d) :: checks) effect =
      if fails then s.answer (.refuse code d) else s.examine checks effect := by
  unfold State.examine; cases fails <;> simp [firstFailing]

/-- Nothing left to examine: the effect follows. -/
theorem examine_nil (effect : State → State) (s : State) : s.examine [] effect = effect s := rfl

/-- Tables with the same first failing row, and effects that agree where the table passes, examine alike. -/
theorem examine_congr {c1 c2 : List Check} {e1 e2 : State → State} (h : firstFailing c1 = firstFailing c2)
    (he : passes c2 → e1 s = e2 s) : s.examine c1 e1 = s.examine c2 e2 := by
  unfold State.examine; rw [h]
  cases hc : firstFailing c2 with
  | some r => rfl
  | none => exact he (firstFailing_none hc)

/-- R25: a wire value is a malformed selector, or the selector whose wire value it is. -/
theorem Selector.ofWire_cases (w : Half) :
    (selectorOk w = false ∧ Selector.ofWire w = none) ∨
    ∃ x, selectorOk w = true ∧ Selector.ofWire w = some x ∧ x.wire = w.toNat ∧
      x.isReel = decide (w.toNat / 256 = 128) := by
  unfold selectorOk Selector.ofWire
  have := w.isLt
  simp only [Config.globalPlanes, Config.reelPlanes]
  by_cases h0 : w.toNat / 256 = 0
  · by_cases h1 : w.toNat % 256 < 64
    · right
      refine ⟨.global (w.toNat % 256), by simp [h0, h1], by simp [h0, h1], ?_, by simp [Selector.isReel, h0]⟩
      simp [Selector.wire]; omega
    · left; simp [h0, h1]
  · by_cases h1 : w.toNat / 256 = 128
    · by_cases h2 : w.toNat % 256 < 192
      · right
        refine ⟨.reel (w.toNat % 256), by simp [h1, h2], by simp [h1, h2], ?_, by simp [Selector.isReel, h1]⟩
        simp [Selector.wire]; omega
      · left; simp [h1, h2]
    · left; simp [h0, h1]

/-- R24, R25: the selector checks stand before a block's own. -/
theorem withPlane_examine {sel : Half} {block : Selector → State → State} {checks : List Check}
    {effect : State → State}
    (h : ∀ x, x.wire = sel.toNat → Selector.ofWire sel = some x → block x s = s.examine checks effect) :
    withPlane sel block s = s.examine (selectorChecks sel s ++ checks) effect := by
  unfold withPlane selectorChecks
  simp only [List.cons_append, List.nil_append, examine_cons]
  rcases Selector.ofWire_cases sel with ⟨h1, h2⟩ | ⟨x, h1, h2, h3, h4⟩
  · simp [h1, h2]
  · simp [h1, h2, h4, h x h3 h2]

/-- What passing the selector checks says. -/
theorem selectorChecks_pass {sel : Half} {checks : List Check} (hp : passes (selectorChecks sel s ++ checks)) :
    ∃ x, Selector.ofWire sel = some x ∧ x.wire = sel.toNat ∧ (x.isReel && s.reel.isNone) = false ∧ passes checks := by
  have h1 := hp (!selectorOk sel, .badValue, 1) (by simp [selectorChecks])
  have h2 := hp (decide (sel.toNat / 256 = 128) && s.reel.isNone, .noReel, 0) (by simp [selectorChecks])
  rcases Selector.ofWire_cases sel with ⟨h3, _⟩ | ⟨x, h3, h4, h5, h6⟩
  · simp [h3] at h1
  · exact ⟨x, h4, h5, by rw [h6]; exact h2, fun c hc => hp c (by simp [hc])⟩

/-- R49: the set-number check stands before a block's own. -/
theorem withSet_examine {set : Byte} {block : Nat → State → State} {checks : List Check} {effect : State → State}
    (h : set.toNat ≤ 15 → block set.toNat s = s.examine checks effect) :
    withSet set block s = s.examine ((decide (15 < set.toNat), .badValue, 1) :: checks) effect := by
  unfold withSet
  rw [examine_cons]
  by_cases hs : set.toNat ≤ 15
  · rw [if_neg (by simp [Config.curveSets]; omega), if_neg (by simpa using hs), h hs]
  · rw [if_pos (by simp [Config.curveSets]; omega), if_pos (by simpa using hs)]

/-- R51: the channels a wire value names. -/
theorem channelOf_cases (b : Byte) :
    (2 < b.toNat ∧ channelOf b = none) ∨
    (b.toNat ≤ 2 ∧ channelOf b = some (if b.toNat = 0 then .red else if b.toNat = 1 then .green else .blue)) := by
  unfold channelOf
  split <;> simp_all
  omega

end Sys2Proof.Machine
end

