-- ==== Sys2Proof/Laws/Table.lean ====
section
/-! SUPPORT. Tables by number and the frame store: what a number holds after each operation, and that every
operation keeps the canonical form. -/

namespace Sys2Proof.Machine

variable {α : Type} {t : Table α} {a b : Nat} {x : α}

/-! ## What a number holds -/

@[simp] theorem Table.get_nil : Table.get ([] : Table α) a = none := rfl

/-- The value put at a number is what it holds; the other numbers hold what they held. -/
@[simp] theorem Table.get_put (t : Table α) (a b : Nat) (x : α) :
    Table.get (Table.put t a x) b = if a = b then some x else Table.get t b := by
  induction t with
  | nil => simp [Table.put, Table.get]
  | cons y t ih =>
    obtain ⟨k, v⟩ := y
    simp only [Table.put]
    split
    · simp only [Table.get]
    · split
      · rename_i h1 h2; subst h2; simp only [Table.get]; split <;> simp_all
      · simp only [Table.get, ih]
        split <;> split <;> simp_all

/-- A number that is erased holds nothing; the other numbers hold what they held. -/
@[simp] theorem Table.get_erase (t : Table α) (a b : Nat) :
    Table.get (Table.erase t a) b = if a = b then none else Table.get t b := by
  induction t with
  | nil => simp [Table.erase]
  | cons y t ih =>
    obtain ⟨k, v⟩ := y
    unfold Table.erase at ih ⊢
    rw [List.filter_cons]
    split
    · simp only [Table.get, ih]; split <;> simp_all; exact fun h => absurd h.symm ‹_›
    · simp only [Table.get, ih]; split <;> simp_all

/-- A value that is changed is the function of what it was; the other numbers hold what they held. -/
@[simp] theorem Table.get_modify (t : Table α) (a b : Nat) (f : α → α) :
    Table.get (Table.modify t a f) b = if a = b then (Table.get t b).map f else Table.get t b := by
  induction t with
  | nil => simp [Table.modify]
  | cons y t ih =>
    obtain ⟨k, v⟩ := y
    unfold Table.modify at ih ⊢
    simp only [List.map_cons]
    split
    · rename_i h; subst h
      simp only [Table.get, ih]; split <;> simp_all
    · simp only [Table.get, ih]; split <;> simp_all; exact fun h => absurd h.symm ‹_›

theorem Table.mem_of_get (h : Table.get t a = some x) : (a, x) ∈ t := by
  induction t with
  | nil => cases h
  | cons y t ih =>
    obtain ⟨k, v⟩ := y
    simp only [Table.get] at h
    split at h
    · simp_all
    · exact List.mem_cons_of_mem _ (ih h)

/-- In a table in canonical form every listed value is what its number holds. -/
theorem Table.get_of_mem (h : Table.wf t) {e : Nat × α} (he : e ∈ t) : Table.get t e.1 = some e.2 := by
  induction t with
  | nil => cases he
  | cons y t ih =>
    obtain ⟨k, v⟩ := y
    rw [Table.wf, List.pairwise_cons] at h
    rcases List.mem_cons.1 he with rfl | he
    · simp [Table.get]
    · have hk := h.1 e he
      rw [Table.get, if_neg (Nat.ne_of_lt hk)]
      exact ih h.2 he

/-- What a put lists. -/
theorem Table.mem_put {e : Nat × α} (he : e ∈ Table.put t a x) : e = (a, x) ∨ e ∈ t := by
  induction t with
  | nil => exact .inl (by simpa [Table.put] using he)
  | cons y t ih =>
    obtain ⟨k, v⟩ := y
    simp only [Table.put] at he
    split at he
    · exact (List.mem_cons.1 he).imp id id
    · split at he
      · exact (List.mem_cons.1 he).imp id (List.mem_cons_of_mem _)
      · rcases List.mem_cons.1 he with h | h
        · exact .inr (h ▸ List.mem_cons_self ..)
        · exact (ih h).imp id (List.mem_cons_of_mem _)

/-! ## The canonical form is kept -/

theorem Table.wf_nil : Table.wf ([] : Table α) := List.Pairwise.nil

theorem Table.wf_put (h : Table.wf t) (a : Nat) (x : α) : Table.wf (Table.put t a x) := by
  induction t with
  | nil => simp [Table.put]
  | cons y t ih =>
    obtain ⟨k, v⟩ := y
    rw [Table.wf, List.pairwise_cons] at h
    simp only [Table.put]
    split
    · rename_i hk
      rw [Table.wf, List.pairwise_cons, List.pairwise_cons]
      refine ⟨fun e he => ?_, h⟩
      rcases List.mem_cons.1 he with rfl | he
      · exact hk
      · exact Nat.lt_trans hk (h.1 e he)
    · split
      · rename_i h2; subst h2; rw [Table.wf, List.pairwise_cons]; exact h
      · rename_i h1 h2
        rw [Table.wf, List.pairwise_cons]
        refine ⟨fun e he => ?_, ih h.2⟩
        rcases Table.mem_put he with rfl | he
        · show k < a; omega
        · exact h.1 e he

theorem Table.wf_filter (h : Table.wf t) (p : Nat × α → Bool) : Table.wf (t.filter p) := h.filter p

theorem Table.wf_erase (h : Table.wf t) (a : Nat) : Table.wf (Table.erase t a) := h.filter _

/-- Changing values alone keeps the numbers. -/
theorem Table.wf_map {β : Type} (h : Table.wf t) (f : Nat × α → β) : Table.wf (t.map fun e => (e.1, f e)) :=
  List.pairwise_map.2 h

theorem Table.wf_modify (h : Table.wf t) (a : Nat) (f : α → α) : Table.wf (Table.modify t a f) := by
  refine List.pairwise_map.2 (h.imp fun {x y} hxy => ?_)
  split <;> split <;> exact hxy

theorem usePlanes_wf (f : Nat → Nat) (sels : List Selector) {t : Table Plane} (h : Table.wf t) :
    Table.wf (usePlanes f sels t) := by
  unfold usePlanes
  induction sels generalizing t with
  | nil => exact h
  | cons x xs ih => exact ih (Table.wf_modify h _ _)

/-- A change of use counts keeps every plane's base, limit, width and fill mark. -/
theorem usePlanes_mem (f : Nat → Nat) (sels : List Selector) {t : Table Plane} {e : Nat × Plane}
    (he : e ∈ usePlanes f sels t) :
    ∃ o ∈ t, o.1 = e.1 ∧ o.2.base = e.2.base ∧ o.2.limit = e.2.limit ∧ o.2.width = e.2.width ∧
      o.2.fill = e.2.fill := by
  unfold usePlanes at he
  induction sels generalizing t with
  | nil => exact ⟨e, he, rfl, rfl, rfl, rfl, rfl⟩
  | cons x xs ih =>
    obtain ⟨o, ho, h1, h2, h3, h4, h5⟩ := ih he
    obtain ⟨q, hq, rfl⟩ := List.mem_map.1 ho
    refine ⟨q, hq, ?_⟩
    split at h1 <;> simp_all

/-! ## The frame store -/

/-- R27: a Line Data write keeps the canonical form. -/
theorem Memory.wf_writeLine {m : Memory} (h : Memory.wf m) (slot : Nat) (words : List Half) :
    Memory.wf (Memory.writeLine m slot words) := by
  unfold Memory.writeLine
  split
  · exact h
  · rename_i hw
    refine ⟨Table.wf_put h.1 _ _, fun e he => ?_⟩
    rcases Table.mem_put he with rfl | he
    · simp [hw]
    · exact h.2 e he

/-- The frame store after reset is in canonical form. -/
theorem Memory.wf_reset : Memory.wf State.reset.store := ⟨Table.wf_nil, by simp [State.reset, State.afterReset]⟩

@[simp] theorem wordsFrom_length (epoch slot i n : Nat) (row : List Half) :
    (wordsFrom epoch slot i n row).length = n := by
  induction n generalizing i row with
  | zero => simp [wordsFrom]
  | succ n ih => cases row <;> simp [wordsFrom, ih]

/-- A read within the words stored returns them. -/
theorem wordsFrom_stored (epoch slot i n : Nat) (row : List Half) (h : n ≤ row.length) :
    wordsFrom epoch slot i n row = row.take n := by
  induction n generalizing i row with
  | zero => simp [wordsFrom]
  | succ n ih =>
    cases row with
    | nil => simp at h
    | cons w ws => simp only [wordsFrom, List.take_succ_cons, ih (i + 1) ws (by simpa using h)]

/-- R27, R38: a line that has been written is read back. -/
theorem Memory.readLine_writeLine (m : Memory) (epoch slot : Nat) (words : List Half) :
    Memory.readLine (Memory.writeLine m slot words) epoch slot words.length = words := by
  unfold Memory.readLine Memory.writeLine
  split
  · subst_vars; simp [wordsFrom]
  · rw [Table.get_put, if_pos rfl, Option.getD_some, wordsFrom_stored _ _ _ _ _ (by simp)]
    simp

/-- R27: a write of one slot leaves what every other slot reads as. -/
theorem Memory.readLine_other (m : Memory) {slot other : Nat} (h : other ≠ slot) (epoch width : Nat)
    (words : List Half) :
    Memory.readLine (Memory.writeLine m slot words) epoch other width = Memory.readLine m epoch other width := by
  unfold Memory.readLine Memory.writeLine
  split
  · rfl
  · rw [Table.get_put, if_neg (Ne.symm h)]

end Sys2Proof.Machine
end

