-- ==== Sys2Proof/Tests/Slice0.lean ====
section
/-! SUPPORT. The model's own tests: the well-formedness checks, one or two steps of every command on a small
recorder, worked examples of the manual, and witnesses that the statements' hypotheses can be met. -/

namespace Sys2Proof.Machine.Tests

set_option Elab.async false

/-! ## Well-formedness: each check refuses an ill-formed command -/

theorem test_wellFormed_lineData : (Instr.lineData 0 0 0 2 [5, 6]).wellFormed = true := by decide
theorem test_illFormed_lineData_count : (Instr.lineData 0 0 0 3 [5, 6]).wellFormed = false := by decide
theorem test_illFormed_lineData_long :
    (Instr.lineData 0 0 0 4098 (List.replicate 4098 0)).wellFormed = false := by decide +kernel
theorem test_wellFormed_curveData : (Instr.curveData 0 1 2 0 1 [⟨5, 6⟩]).wellFormed = true := by decide
theorem test_illFormed_curveData_count : (Instr.curveData 0 1 2 0 2 [⟨5, 6⟩]).wellFormed = false := by decide
theorem test_illFormed_curveData_long :
    (Instr.curveData 0 1 2 0 2732 (List.replicate 2732 ⟨0, 0⟩)).wellFormed = false := by decide +kernel
theorem test_illFormed_corrections : (Instr.loadFacetCorrections 0 1 []).wellFormed = false := by decide
theorem test_illFormed_message : (Instr.messageReceived []).wellFormed = false := by decide
theorem test_illFormed_reading :
    (Instr.powerReading ⟨[], [⟨9, true, true⟩, ⟨9, false, true⟩], []⟩).wellFormed = false := by decide

/-! ## A small recorder -/

/-- The message a request is sent as. -/
def sent (i : Instr) : Message := i.encode.getD ⟨0, 0, []⟩

/-- The request is current and with its block. -/
def handed (i : Instr) (s : State) : State :=
  { s with link := { s.link with current := some ⟨sent i, .handed⟩ } }

/-- A command goes on to a state with a property. -/
def after (c : Instr) (s : State) (p : State → Bool) : Bool :=
  match exec c s with
  | .next t => p t
  | .fault _ => false
  | .refused _ => false

/-- A request that is with its block is answered, and leaves a property. -/
def answers (i : Instr) (s : State) (r : Reply) (p : State → Bool) : Bool :=
  after i (handed i s) fun t => decide (t.link.current = some ⟨sent i, .replyPending r⟩) && p t

/-- A request that is with its block is refused and changes nothing else. -/
def refuses (i : Instr) (s : State) (code : RefusalCode) (detail : Nat) : Bool :=
  after i (handed i s) fun t => decide (t = (handed i s).answered (sent i) (.refuse code detail))

/-- No reel, film present and tensioned, gate open, interlock closed, lasers warm. -/
def idle : State :=
  State.afterReset false .mbit50 true ⟨true, true, false, false, true, Rgb.same true⟩ 0 []

def smallReel : Reel := ⟨10, 4, 2, 256, 100⟩

/-- A small reel, two full planes and one half-filled, a curve set, lock, warm lasers, power targets, and
registered fresh film at position 3. -/
def loaded : State :=
  { idle with
    reel := some smallReel
    transport := { idle.transport with state := .registered, position := 3, gate := .fresh }
    pins := ⟨{ idle.pins.levels with gateClosed := true }, Lines.none⟩
    planes := [(0, ⟨0, 2, 256, 2, 0⟩), (1, ⟨2, 3, 256, 1, 0⟩), (0x8001, ⟨5, 2, 256, 2, 0⟩)]
    curves := [(0, ⟨true, Rgb.same [⟨0, 0⟩, ⟨1200, 16⟩, ⟨3900, 16⟩], 0⟩), (1, ⟨false, Rgb.same [⟨7, 7⟩], 0⟩)]
    scan := { idle.scan with
      state := .locked, captured := some (List.replicate 8 50000), facetCount := 2, sosSeen := true
      period := some 50000, noSignal := some 100000 }
    lasers := Rgb.same .ready
    monitor := ⟨some ⟨Rgb.same ⟨40000, 200, 400⟩, 2, 64⟩, Rgb.same MonitorChannel.reset⟩ }

def exposeWork : Work := .expose ⟨.global 0, .global 0, .reel 1⟩ 0 true

/-- A new record. -/
def newJob (tag : Nat) (work : Work) (count : Nat) : Job := ⟨tag, work, count, 0, 0, 0, 0, none, none⟩

/-- The recorder with one LIVE job. -/
def queued (work : Work) (count : Nat) : State :=
  let s := { loaded with jobs := ⟨[newJob 7 work count], []⟩ }
  s.claimUses work

/-- The head job's frame is in PREPARING. -/
def preparing (work : Work) (count : Nat) : State :=
  { queued work count with
    run := { idle.run with state := .running }
    seq := { idle.seq with phase := .preparing, leadTimer := some 2000 } }

/-- The line set of one line, its pixels all of one code value. -/
def lineSet (line : Nat) (v : Half) : LineSet :=
  ⟨line, [⟨.global 0, List.replicate 4 v⟩, ⟨.reel 1, List.replicate 4 v⟩]⟩

/-- Line `line` of the head job's frame is being driven. -/
def exposing (work : Work) (count line : Nat) : State :=
  let s := preparing work count
  { s with
    seq := { s.seq with phase := .exposing, leadTimer := none, lineCounter := line }
    transport := { s.transport with gate := .used }
    monitor := { s.monitor with channels := s.monitor.channels.map fun c => { c with expecting := true } }
    drive := some ⟨line, 1, 100, some (Rgb.same 2048), Rgb.same (.alike ⟨5, 16, 0, false⟩), false⟩ }

def flashWork : Work := .flash 0 ⟨1, 1, 2⟩

/-! ## The commands, family by family -/

/-! ### Job Store -/

def exposeItems : QueueJobItems := ⟨9, 0, 3, ⟨0, 0, 0x8001⟩, 0, ⟨0, 0, 0⟩, 0, 1⟩

theorem test_queueJob_accepts : answers (.queueJob 1 exposeItems) loaded (.accept [1, 0]) (fun t =>
    decide (t.jobs.live = [newJob 9 exposeWork 256] ∧ (Table.get t.planes 0).map Plane.use = some 1 ∧
      (Table.get t.planes 0x8001).map Plane.use = some 1 ∧ (Table.get t.curves 0).map CurveSet.use = some 1)) = true := by
  decide +kernel
theorem test_queueJob_refuses :
    refuses (.queueJob 1 { exposeItems with selectors := ⟨0, 2, 0x8001⟩ }) loaded .notDefined 2 = true := by
  decide +kernel
theorem test_cancelJob_ends : answers (.cancelJob 1 7) (queued exposeWork 1) (.accept [0, 1]) (fun t =>
    decide (t.jobs = ⟨[], [{ newJob 7 exposeWork 1 with outcome := some .cancelled }]⟩ ∧
      (Table.get t.planes 0).map Plane.use = some 0)) = true := by decide +kernel
theorem test_cancelJob_refuses_head : refuses (.cancelJob 1 7) (preparing exposeWork 1) .busy 0 = true := by
  decide +kernel
theorem test_queryJob_reports : answers (.queryJob 1 7) (queued .blank 2)
    (.accept ([0, 0] ++ [7, 0, 2, 0, 0, 0, 0, 0, 0, 0, 0, 0, 0, 0, 0, 0, 0, 2, 0, 0, 0, 0, 0, 0, 0, 0, 0, 0, 0, 0]))
    (fun _ => true) = true := by decide +kernel
theorem test_queryJob_refuses : refuses (.queryJob 1 8) (queued .blank 2) .noSuchJob 0 = true := by decide +kernel

/-! ### Plane Tables -/

theorem test_definePlane_defines : answers (.definePlane 1 63 7 4096 4096) loaded (.accept []) (fun t =>
    decide (Table.get t.planes 63 = some ⟨7, 4096, 4096, 0, 0⟩)) = true := by decide +kernel
theorem test_definePlane_refuses_overlap :
    refuses (.definePlane 1 63 6 1 256) loaded .overlap 0x8001 = true := by decide +kernel
theorem test_undefinePlane_undefines : answers (.undefinePlane 1 1) loaded (.accept []) (fun t =>
    decide (t.planes.map Prod.fst = [0, 0x8001])) = true := by decide +kernel
theorem test_undefinePlane_refuses : refuses (.undefinePlane 1 0) (queued exposeWork 1) .inUse 1 = true := by
  decide +kernel
theorem test_rewindPlane_rewinds : answers (.rewindPlane 1 0x8001) loaded (.accept []) (fun t =>
    decide (Table.get t.planes 0x8001 = some ⟨5, 2, 256, 0, 0⟩)) = true := by decide +kernel
theorem test_rewindPlane_refuses : refuses (.rewindPlane 1 64) loaded .badValue 1 = true := by decide +kernel
theorem test_queryPlane_reports : answers (.queryPlane 1 1) loaded
    (.accept [1, 2, 0, 3, 0, 0, 1, 1, 0, 0]) (fun _ => true) = true := by decide +kernel
theorem test_queryPlane_refuses : refuses (.queryPlane 1 0x8001) idle .noReel 0 = true := by decide +kernel

def fullLine : List Half := List.replicate 256 0x0123

theorem test_lineData_claims : after (.lineData 1 1 1 256 fullLine) (handed (.lineData 1 1 1 256 fullLine) loaded)
    (fun t => decide (t.arbiter.access = some (.write ⟨.global 1, 3, fullLine⟩) ∧
      t.link.current.map Current.stage = some .waiting)) = true := by decide +kernel
theorem test_lineData_refuses : refuses (.lineData 1 1 2 256 fullLine) loaded .outOfOrder 1 = true := by decide +kernel
/-- A Line Data write for line 1 of GLOBAL 1 is in progress. -/
def writing : State :=
  { loaded with
    link := { loaded.link with current := some ⟨sent (.lineData 1 1 1 256 fullLine), .waiting⟩ }
    arbiter := { loaded.arbiter with access := some (.write ⟨.global 1, 3, fullLine⟩) } }

theorem test_lineDataWriteComplete_stores : after .lineDataWriteComplete writing (fun t =>
    decide (t.store = [(3, fullLine)] ∧ (Table.get t.planes 1).map Plane.fill = some 2 ∧ t.arbiter.access = none ∧
      t.link.current = some ⟨sent (.lineData 1 1 1 256 fullLine), .replyPending (.accept [2, 0, 1])⟩)) = true := by
  decide +kernel
theorem test_lineDataWriteComplete_nothing : after .lineDataWriteComplete loaded (fun t => decide (t = loaded)) = true := by
  decide +kernel

/-- A prefetch read of the only plane left of line 1 is in progress; its slot holds two stored words. -/
def reading : State :=
  let s := preparing exposeWork 1
  { s with
    store := [(6, [1, 2])]
    seq := { s.seq with
      cursor := 1, queue := [lineSet 0 1], assembly := some ⟨1, [⟨.global 0, [3, 4]⟩], [.reel 1]⟩ }
    arbiter := { s.arbiter with access := some (.read ⟨.reel 1, 6, 2⟩ false) } }

theorem test_prefetchReadComplete_queues : after .prefetchReadComplete reading (fun t =>
    decide (t.seq.queue = [lineSet 0 1, ⟨1, [⟨.global 0, [3, 4]⟩, ⟨.reel 1, [1, 2]⟩]⟩] ∧ t.seq.cursor = 2 ∧
      t.seq.assembly = none ∧ t.arbiter.access = none)) = true := by decide +kernel

/-! ### Curve Memory and drive options -/

theorem test_beginCurve_begins : answers (.beginCurve 1 15) loaded (.accept []) (fun t =>
    decide (Table.get t.curves 15 = some ⟨false, Rgb.same [], 0⟩)) = true := by decide +kernel
theorem test_beginCurve_refuses : refuses (.beginCurve 1 0) (queued exposeWork 1) .inUse 1 = true := by decide +kernel
theorem test_curveData_loads : answers (.curveData 1 1 2 1 2 [⟨4095, 16⟩, ⟨8, 0⟩]) loaded (.accept [3, 0]) (fun t =>
    decide ((Table.get t.curves 1).map CurveSet.entries =
      some ⟨[⟨7, 7⟩], [⟨7, 7⟩], [⟨7, 7⟩, ⟨4095, 16⟩, ⟨8, 0⟩]⟩)) = true := by decide +kernel
theorem test_curveData_refuses :
    refuses (.curveData 1 1 2 1 2 [⟨4095, 16⟩, ⟨8, 17⟩]) loaded .badValue 0x8002 = true := by decide +kernel

/-- A complete curve of one exposure product. -/
def flatCurve : List DriveEntry := List.replicate 4096 ⟨2000, 9⟩
/-- A complete curve whose first decrease is at entry 1801 (section 3.8). -/
def slipCurve : List DriveEntry := List.replicate 1801 ⟨2000, 9⟩ ++ ⟨2200, 8⟩ :: List.replicate 2294 ⟨2200, 9⟩

theorem flatCurve_length : flatCurve.length = 4096 := List.length_replicate
theorem slipCurve_length : slipCurve.length = 4096 := by
  unfold slipCurve
  rw [List.length_append, List.length_cons, List.length_replicate, List.length_replicate]

theorem firstDecrease_replicate (e : DriveEntry) (n : Nat) : ∀ v, firstDecrease v (List.replicate n e) = none := by
  induction n with
  | zero => intro v; rfl
  | succ n ih =>
    intro v
    cases n with
    | zero => rfl
    | succ n => simpa [List.replicate_succ, firstDecrease] using ih (v + 1)

theorem firstDecrease_slip (e f : DriveEntry) (rest : List DriveEntry) (h : f.product < e.product) (n : Nat) :
    ∀ v, firstDecrease v (List.replicate (n + 1) e ++ f :: rest) = some (v + n + 1) := by
  induction n with
  | zero => intro v; simp [firstDecrease, h]
  | succ n ih =>
    intro v
    have := ih (v + 1)
    simp only [List.replicate_succ, List.cons_append] at this ⊢
    simp only [firstDecrease, lt_irrefl, if_false, this]
    congr 1; omega

/-- A LOADING set with its entries. -/
def loading (green : List DriveEntry) : CurveSet := ⟨false, ⟨flatCurve, green, flatCurve⟩, 0⟩

/-- Commit Curve on a set that is complete: READY, or refused at its first decrease. -/
theorem commitCurve_complete (c : CurveSet) (hr : c.ready = false) (hi : c.incomplete = none) :
    (c.decrease = none → answers (.commitCurve 1 5) { idle with curves := [(5, c)] } (.accept [])
      (fun t => decide (Table.get t.curves 5 = some { c with ready := true })) = true) ∧
    (∀ n, c.decrease = some n → refuses (.commitCurve 1 5) { idle with curves := [(5, c)] } .notMonotonic n = true) := by
  refine ⟨fun hd => ?_, fun n hd => ?_⟩ <;>
    simp [answers, refuses, after, exec, execCommitCurve, carryOut, event, handed, State.request, State.isHanded,
      commitCurveBlock, withSet, State.examine, firstFailing, Table.get, Table.put, State.accept, State.answer,
      State.answered, hd, hi, hr, idle, State.afterReset, Config.curveSets, Link.reset, sent, Instr.encode,
      Message.decode, read1]

theorem test_commitCurve_commits : answers (.commitCurve 1 5) { idle with curves := [(5, loading flatCurve)] } (.accept [])
    (fun t => decide (Table.get t.curves 5 = some { loading flatCurve with ready := true })) = true :=
  (commitCurve_complete _ rfl (by simp [CurveSet.incomplete, loading, Rgb.first, flatCurve_length, Config.curveEntries])).1
    (by simp only [CurveSet.decrease, loading, flatCurve, firstDecrease_replicate, Option.map_none])
theorem test_commitCurve_refuses_fall :
    refuses (.commitCurve 1 5) { idle with curves := [(5, loading slipCurve)] } .notMonotonic 5897 = true :=
  (commitCurve_complete _ rfl (by
    simp [CurveSet.incomplete, loading, Rgb.first, flatCurve_length, slipCurve_length, Config.curveEntries])).2 _
    (by
      have h := firstDecrease_slip ⟨2000, 9⟩ ⟨2200, 8⟩ (List.replicate 2294 ⟨2200, 9⟩) (by decide) 1800 0
      simp only [CurveSet.decrease, loading, flatCurve, slipCurve, firstDecrease_replicate, h])
theorem test_discardCurve_discards : answers (.discardCurve 1 1) loaded (.accept []) (fun t =>
    decide (t.curves.map Prod.fst = [0])) = true := by decide +kernel
theorem test_discardCurve_refuses : refuses (.discardCurve 1 16) loaded .badValue 1 = true := by decide +kernel
theorem test_queryCurve_reports :
    answers (.queryCurve 1 0) loaded (.accept [2, 3, 0, 3, 0, 3, 0, 0]) (fun _ => true) = true := by decide +kernel
theorem test_setDriveOptions_sets : answers (.setDriveOptions 1 2) loaded (.accept []) (fun t =>
    decide (t.placement = .trailing)) = true := by decide +kernel
theorem test_setDriveOptions_refuses : refuses (.setDriveOptions 1 0) (preparing exposeWork 1) .busy 0 = true := by
  decide +kernel

/-- The driven pixels and reference pulses of section 3.8. -/
theorem test_pixelDrive_worked_example :
    pixelDrive .centered 4096 ⟨600, 5⟩ = ⟨600, 5, 5, false⟩ ∧
    pixelDrive .centered 4480 ⟨1200, 16⟩ = ⟨1313, 16, 0, false⟩ ∧
    pixelDrive .centered 3900 ⟨1200, 16⟩ = ⟨1143, 16, 0, false⟩ ∧
    pixelDrive .centered 4480 ⟨3900, 16⟩ = ⟨4095, 16, 0, true⟩ ∧
    pixelDrive .centered 3900 ⟨850, 0⟩ = ⟨0, 0, 0, false⟩ ∧
    pulseLevel 4480 = 2240 ∧ pulseLevel 3900 = 1950 := by decide

/-- The table of R60. -/
theorem test_startSubPeriod_centered : (List.range 16).map (fun d => startSubPeriod .centered (d + 1)) =
    [7, 7, 6, 6, 5, 5, 4, 4, 3, 3, 2, 2, 1, 1, 0, 0] := by decide

/-! ### Runs -/

theorem test_startRun_prepares : answers (.startRun 1 0 0) (queued flashWork 1) (.accept []) (fun t =>
    decide (t.run = ⟨.running, .endOnEmpty, .none, 2000, none⟩ ∧ t.seq.phase = .preparing ∧
      t.seq.leadTimer = some 2000)) = true := by decide +kernel
theorem test_startRun_refuses :
    refuses (.startRun 1 1 9) (queued flashWork 1) .badValue 2 = true := by decide +kernel
theorem test_stopRun_spoils : answers (.stopRun 1 3) (exposing flashWork 1 1) (.accept [0, 0]) (fun t =>
    decide (t.log = ⟨[⟨.spoiled, 3, 7, .stopNow, some 1, none⟩], 1⟩ ∧
      t.run.halt = some ⟨.stopRequest, 3, some 7⟩ ∧ t.drive = none)) = true := by decide +kernel
theorem test_stopRun_waits : answers (.stopRun 1 2) (exposing flashWork 1 1) (.accept [1, 2]) (fun t =>
    decide (t.run.pendingStop = .atFrame ∧ t.seq.phase = .exposing)) = true := by decide +kernel
theorem test_pauseRun_rests : answers (.pauseRun 1) (preparing flashWork 1) (.accept [3]) (fun t =>
    decide (t.run.state = .paused ∧ t.seq = Sequencer.reset)) = true := by decide +kernel
theorem test_pauseRun_pauses : answers (.pauseRun 1) (exposing flashWork 1 0) (.accept [2]) (fun t =>
    decide (t.run.state = .pausing ∧ t.seq.phase = .exposing)) = true := by decide +kernel

/-- The run rests. -/
def paused : State := { queued flashWork 1 with run := { idle.run with state := .paused } }

theorem test_resumeRun_resumes : answers (.resumeRun 1 10) paused (.accept []) (fun t =>
    decide (t.run.state = .running ∧ t.run.leadIn = 10 ∧ t.seq.phase = .preparing)) = true := by decide +kernel
theorem test_resumeRun_refuses : refuses (.resumeRun 1 0) loaded .busy 0 = true := by decide +kernel

/-! ### The frame cycle -/

theorem test_leadInTimerExpiry_halts : after .leadInTimerExpiry (preparing exposeWork 1) (fun t =>
    decide (t.run.halt = some ⟨.dataLate, 3, some 7⟩ ∧ t.log.entries = [])) = true := by decide +kernel
theorem test_leadInTimerExpiry_stops : after .leadInTimerExpiry (preparing flashWork 1) (fun t =>
    decide (t.seq.phase = .preparing ∧ t.seq.leadTimer = none)) = true := by decide +kernel
theorem test_frameCleanEnd_ends : after .frameCleanEnd (exposing exposeWork 1 1) (fun t =>
    decide (t.jobs.live = [] ∧ t.jobs.results.map Job.outcome = [some .complete] ∧
      t.planes.map Prod.fst = [0, 1] ∧ t.run.halt = some ⟨.queueEmpty, 3, none⟩ ∧ t.drive = none)) = true := by
  decide +kernel
theorem test_frameCleanEnd_suspect :
    after .frameCleanEnd { exposing flashWork 2 1 with seq := { (exposing flashWork 2 1).seq with suspect := some .blue } }
    (fun t => decide (t.jobs.live.map Job.framesDone = [1] ∧ t.jobs.live.map Job.suspect = [1] ∧
      t.log.entries = [⟨.suspect, 3, 7, .monitorLost, none, some .blue⟩] ∧
      t.run.halt = some ⟨.monitorLost, 3, some 7⟩)) = true := by decide +kernel

/-! ### Film transport -/

theorem test_openReel_opens : answers (.openReel 1 ⟨9000, 5, 4, 3112, 4096, 5000⟩) idle (.accept []) (fun t =>
    decide (t.reel = some ⟨9000, 4, 3112, 4096, 5000⟩ ∧ t.transport.position = 5)) = true := by decide +kernel
theorem test_openReel_refuses : refuses (.openReel 1 ⟨9000, 9000, 4, 3112, 4096, 5000⟩) idle .badValue 2 = true := by
  decide +kernel
theorem test_closeReel_flushes : answers (.closeReel 1) (queued exposeWork 1) (.accept [1]) (fun t =>
    decide (t.reel = none ∧ t.jobs.results.map Job.outcome = [some .flushed] ∧ t.planes.map Prod.fst = [0, 1] ∧
      t.planes.map (fun e => e.2.use) = [0, 0])) = true := by decide +kernel
theorem test_closeReel_refuses : refuses (.closeReel 1) idle .noReel 0 = true := by decide +kernel
theorem test_registerGate_settles : answers (.registerGate 1 0) { idle with transport := { idle.transport with state := .opened } }
    (.accept []) (fun t => decide (t.transport.state = .settling ∧ t.transport.settleTimer = some 20 ∧
      t.transport.settleEnds = some (.registerGate .fresh))) = true := by decide +kernel
theorem test_registerGate_refuses : refuses (.registerGate 1 1) loaded .busy 0 = true := by decide +kernel
theorem test_advanceFrames_moves : after (.advanceFrames 1 6) (handed (.advanceFrames 1 6) loaded) (fun t =>
    decide (t.transport.state = .advancing ∧ t.transport.series = some ⟨6, 0⟩ ∧
      t.transport.pullDownTimer = some 500)) = true := by decide +kernel
theorem test_advanceFrames_refuses : refuses (.advanceFrames 1 7) loaded .endOfReel 6 = true := by decide +kernel

/-- A pull-down is moving or settling. -/
def moving (state : TransportState) (perfs : Nat) (series : Option Series) : State :=
  { loaded with transport := { loaded.transport with
      state := state, perfs := perfs, series := series, pullDownTimer := some 500
      settleEnds := some .pullDown } }

theorem test_clearTransport_opens : answers (.clearTransport 1) (moving (.fault .gate) 0 none) (.accept [1]) (fun t =>
    decide (t.transport.state = .opened)) = true := by decide +kernel
theorem test_clearTransport_refuses : refuses (.clearTransport 1) loaded .busy 0 = true := by decide +kernel
theorem test_setTransportTiming_sets : answers (.setTransportTiming 1 2000 250) loaded (.accept []) (fun t =>
    decide (t.transport.timeout = 2000 ∧ t.transport.settle = 250)) = true := by decide +kernel
theorem test_setTransportTiming_refuses : refuses (.setTransportTiming 1 10 0) loaded .badValue 2 = true := by
  decide +kernel
theorem test_perfPulse_settles : after .perfPulse (moving .advancing 3 none) (fun t =>
    decide (t.transport.state = .settling ∧ t.transport.settleTimer = some 20 ∧
      t.transport.pullDownTimer = none)) = true := by decide +kernel
theorem test_perfPulse_counts : after .perfPulse (moving .advancing 2 none) (fun t =>
    decide (t.transport.state = .advancing ∧ t.transport.perfs = 3)) = true := by decide +kernel
theorem test_pullDownTimerExpiry_faults : after .pullDownTimerExpiry (moving .advancing 2 none) (fun t =>
    decide (t.transport.state = .fault .perfTimeout ∧ t.run = idle.run)) = true := by decide +kernel
theorem test_settleTimerExpiry_registers : after .settleTimerExpiry (moving .settling 4 (some ⟨2, 0⟩)) (fun t =>
    decide (t.transport.state = .advancing ∧ t.transport.position = 4 ∧ t.transport.series = some ⟨2, 1⟩)) = true := by
  decide +kernel
theorem test_settleTimerExpiry_passes_blank :
    after .settleTimerExpiry { preparing .blank 1 with transport := (moving .settling 4 none).transport } (fun t =>
    decide (t.transport.position = 4 ∧ t.transport.gate = .used ∧
      t.jobs.results.map Job.positions = [some ⟨4, 4⟩] ∧ t.run.halt = some ⟨.queueEmpty, 4, none⟩)) = true := by
  decide +kernel
theorem test_filmPresentChange_loses : after (.filmPresentChange false) (exposing flashWork 1 1) (fun t =>
    decide (t.transport.state = .fault .filmLost ∧ t.run.halt = some ⟨.transportFault, 3, some 7⟩ ∧
      t.log.entries = [⟨.spoiled, 3, 7, .transportFault, some 1, none⟩] ∧ t.pins.changed.filmPresent = true)) = true := by
  decide +kernel
theorem test_tensionOkChange_faults : after (.tensionOkChange false) loaded (fun t =>
    decide (t.transport.state = .fault .tension ∧ t.link.notices.lines = true)) = true := by decide +kernel
theorem test_gateClosedChange_faults : after (.gateClosedChange false) (preparing flashWork 1) (fun t =>
    decide (t.transport.state = .fault .gate ∧ t.run.halt = some ⟨.transportFault, 3, some 7⟩)) = true := by
  decide +kernel
theorem test_endSensorChange_notes : after (.endSensorChange true) loaded (fun t =>
    decide (t.pins.levels.endSensor = true ∧ t.pins.changed.endSensor = true ∧ t.transport = loaded.transport)) = true := by
  decide +kernel

/-! ### Scan timing -/

theorem test_setScanGeometry_sets : answers (.setScanGeometry 1 ⟨4, 50000, 10000, 500, 3, 2⟩) loaded (.accept []) (fun t =>
    decide (t.scan.geometry = ⟨4, 50000, 10000, 500, 3, 2⟩ ∧ t.scan.state = .unlocked ∧
      t.scan.corrections = [0, 0, 0, 0] ∧ t.scan.captured = none)) = true := by decide +kernel
theorem test_setScanGeometry_refuses :
    refuses (.setScanGeometry 1 ⟨17, 50000, 10000, 500, 3, 2⟩) loaded .badValue 1 = true := by decide +kernel
theorem test_loadFacetCorrections_loads :
    answers (.loadFacetCorrections 1 8 [120, -40, 0, 300, 0, 0, 0, -2000]) loaded (.accept []) (fun t =>
    decide (t.scan.corrections = [120, -40, 0, 300, 0, 0, 0, -2000])) = true := by decide +kernel
theorem test_loadFacetCorrections_refuses :
    refuses (.loadFacetCorrections 1 8 [0, 0, 0, -2001, 0, 0, 0, 0]) loaded .badValue 0x8003 = true := by decide +kernel
theorem test_calibrateScan_starts : answers (.calibrateScan 1) loaded (.accept []) (fun t =>
    decide (t.scan.state = .calibrating ∧ t.scan.calibration.map Calibration.indexDeadline = some 1600000 ∧
      t.scan.calibration.map Calibration.sosGap = some 100000 ∧ t.link.notices.scan = true)) = true := by decide +kernel

/-- A calibration of a four-facet polygon in its second and last revolution (section 7.9). -/
def calibrating (facets : Nat) : State :=
  { idle with scan := { idle.scan with
      geometry := ⟨4, 50000, 10000, 500, 3, 2⟩, state := .calibrating, facetCount := facets, sosSeen := true
      calibration := some ⟨2, true, [100060, 99940, 100010, 50090], none, none, 1, 800000, 100000⟩ } }

theorem test_sosPulse_captures : after (.sosPulse 50079) (calibrating 3) (fun t =>
    decide (t.scan.facetCount = 4 ∧
      t.scan.calibration.map Calibration.sums = some [100060, 99940, 100010, 100160])) = true := by decide +kernel
theorem test_sosPulse_begins_exposure : after (.sosPulse 50000) (preparing flashWork 1) (fun t =>
    decide (t.seq.phase = .exposing ∧ t.transport.gate = .used ∧ t.scan.facetCount = 3 ∧
      t.jobs.live.map Job.positions = [some ⟨3, 3⟩] ∧
      t.drive = some ⟨0, 2, 100, some (Rgb.same 2048),
        ⟨.alike ⟨1200, 16, 0, false⟩, .alike ⟨1200, 16, 0, false⟩, .alike ⟨3900, 16, 0, false⟩⟩, false⟩)) = true := by
  decide +kernel
theorem test_indexPulse_locks : after .indexPulse
    { calibrating 4 with scan := { (calibrating 4).scan with
        calibration := some ⟨2, true, [100060, 99940, 100010, 100160], none, none, 1, 800000, 100000⟩ } } (fun t =>
    decide (t.scan.state = .locked ∧ t.scan.captured = some [50030, 49970, 50000, 50080] ∧
      t.scan.outcome = .locked 2 ∧ t.scan.noSignal = some 100000)) = true := by decide +kernel
theorem test_indexPulse_judges_count : after .indexPulse (calibrating 3) (fun t =>
    decide (t.scan.state = .unlocked ∧ t.scan.outcome = .facetCount 2 2 3 ∧ t.scan.captured = none)) = true := by
  decide +kernel
theorem test_calibrationIndexDeadline_ends : after .calibrationIndexDeadline (calibrating 3) (fun t =>
    decide (t.scan.state = .unlocked ∧ t.scan.outcome = .noSignal 1 .index)) = true := by decide +kernel
theorem test_sosGapWatchdogExpiry_ends : after .sosGapWatchdogExpiry (calibrating 3) (fun t =>
    decide (t.scan.outcome = .noSignal 1 .sos ∧ t.link.notices.scan = true)) = true := by decide +kernel
theorem test_noSignalWatchdogExpiry_loses : after .noSignalWatchdogExpiry (exposing flashWork 1 1) (fun t =>
    decide (t.scan.state = .lost .noSignal ∧ t.run.halt = some ⟨.scanLost, 3, some 7⟩ ∧
      t.log.entries = [⟨.spoiled, 3, 7, .scanLost, some 1, none⟩])) = true := by decide +kernel

/-- The good measured periods of facet 0 of section 7.9. -/
theorem test_goodPeriod_bounds : (goodPeriod 500 50010 50030 && goodPeriod 500 50050 50030 &&
    !goodPeriod 500 50000 50030 && !goodPeriod 500 50060 50030) = true := by decide

/-! ### Lasers and monitor -/

theorem test_enableLasers_warms :
    answers (.enableLasers 1 7) { loaded with
      lasers := ⟨.off, .off, .warming⟩, pins := ⟨{ loaded.pins.levels with laserReady := ⟨true, false, false⟩ }, Lines.none⟩ }
      (.accept [2, 1, 1]) (fun _ => true) = true := by decide +kernel
theorem test_enableLasers_refuses :
    refuses (.enableLasers 1 6) { loaded with lasers := ⟨.off, .off, .fault⟩ } .notReady 2 = true := by decide +kernel
theorem test_disableLasers_turns_off : answers (.disableLasers 1 5) loaded (.accept [0, 2, 0]) (fun _ => true) = true := by
  decide +kernel
theorem test_disableLasers_refuses : refuses (.disableLasers 1 8) loaded .badValue 1 = true := by decide +kernel
theorem test_interlockChange_opens : after (.interlockChange false) (exposing flashWork 1 1) (fun t =>
    decide (t.lasers = Rgb.same .off ∧ t.drive = none ∧
      t.log.entries = [⟨.spoiled, 3, 7, .interlock, some 1, none⟩])) = true := by decide +kernel
theorem test_laserReadyChange_faults : after (.laserReadyChange ⟨true, false, false⟩) (exposing flashWork 1 1) (fun t =>
    decide (t.lasers = ⟨.ready, .fault, .fault⟩ ∧
      t.log.entries = [⟨.spoiled, 3, 7, .laserFault, some 1, some .green⟩])) = true := by decide +kernel
theorem test_monitorClockLost_marks : after (.monitorClockLost .green) (exposing flashWork 1 1) (fun t =>
    decide (t.seq.suspect = some .green ∧ t.monitor.channels.green.flags.clockLost = true ∧
      t.link.notices.monitor = true)) = true := by decide +kernel
theorem test_monitorClockReturn_returns :
    after (.monitorClockReturn .red) { loaded with monitor := { loaded.monitor with
      channels := Rgb.same { MonitorChannel.reset with lost := true } } } (fun t =>
    decide (t.monitor.channels.red.lost = false ∧ t.monitor.channels.green.lost = true)) = true := by decide +kernel

def targets : PowerItems := ⟨⟨⟨40000, 200, 400⟩, ⟨30000, 200, 400⟩, ⟨36000, 200, 400⟩⟩, 0, 64⟩

theorem test_setPowerTargets_sets : answers (.setPowerTargets 1 targets) idle (.accept []) (fun t =>
    decide (t.monitor.targets = some ⟨⟨⟨40000, 200, 400⟩, ⟨30000, 200, 400⟩, ⟨36000, 200, 400⟩⟩, 2, 64⟩ ∧
      t.monitor.channels.red.trim = 4096)) = true := by decide +kernel
theorem test_setPowerTargets_refuses :
    refuses (.setPowerTargets 1 { targets with channels := ⟨⟨40000, 200, 400⟩, ⟨30000, 200, 200⟩, ⟨36000, 0, 400⟩⟩ }) idle
      .badValue 8 = true := by decide +kernel
theorem test_readMonitor_reports : answers (.readMonitor 1) { loaded with monitor := { loaded.monitor with
      channels := ⟨{ MonitorChannel.reset with latest := 258, isFresh := true, mean := 3, valid := true },
        MonitorChannel.reset, MonitorChannel.reset⟩ } }
    (.accept ([2, 1, 1, 0, 16, 1, 3, 0] ++ [0, 0, 0, 0, 16, 0, 0, 0] ++ [0, 0, 0, 0, 16, 0, 0, 0]))
    (fun t => decide (t.monitor.channels.red.isFresh = false)) = true := by decide +kernel
/-- A bit clock whose `n` rising edges come every nanosecond after the facet sync, with a falling edge after each; the
bitstream is 1 at the first `ones` of the rising edges. -/
def clocked (n ones : Nat) : List ClockEdge :=
  (List.range n).flatMap fun k => [⟨1000 * k + 1000, true, decide (k < ones)⟩, ⟨1000 * k + 1500, false, true⟩]

/-- 64 samples are counted; a clock with 63 rising edges so far gives no reading, nor does one whose 64th comes at the
active start, 100 ns after the facet sync. -/
theorem test_powerReading_counts :
    after (.powerReading ⟨clocked 64 39, clocked 63 39, clocked 64 39 |>.map fun e => { e with time := e.time + 36000 }⟩)
      (exposing flashWork 1 1) (fun t =>
    decide (t.monitor.channels.red.latest = 39935 ∧ t.monitor.channels.red.count = 1 ∧
      t.monitor.channels.red.breaches = 0 ∧ t.monitor.channels.green.count = 0 ∧
      t.monitor.channels.blue.count = 0)) = true := by decide +kernel
theorem test_powerReading_spoils : after (.powerReading ⟨clocked 64 30, [], []⟩)
    { exposing flashWork 1 1 with monitor := { loaded.monitor with
        channels := ⟨{ MonitorChannel.reset with expecting := true, breaches := 1 }, MonitorChannel.reset,
          MonitorChannel.reset⟩ } } (fun t =>
    decide (t.monitor.channels.red.flags = ⟨false, true, false, true, false, false⟩ ∧
      t.log.entries = [⟨.spoiled, 3, 7, .powerFault, some 1, some .red⟩])) = true := by decide +kernel

/-- The trim table of section 8.8, frames 2 and 3: the step limit and the range clamp. -/
theorem test_trim_worked_example :
    clampTrim (steppedTrim 4096 40000 39200) = 4160 ∧ steppedTrim 5100 30000 28000 = 5164 ∧
    clampTrim 5164 = 5120 ∧ clampTrim (steppedTrim 4010 36000 36050) = 4004 ∧
    clampTrim (steppedTrim 4160 40000 39800) = 4180 ∧ clampTrim (steppedTrim 4004 36000 36010) = 4002 := by decide

/-- The soft bound of section 8.8: a reading that differs from 40,000 by 1,954 or more lies outside. -/
theorem test_window_worked_example : (outsideWindow 38046 40000 200 && !outsideWindow 38047 40000 200 &&
    outsideWindow 36093 40000 400 && !outsideWindow 36094 40000 400) = true := by decide

/-! ### Spoil Log and link -/

def entry (line : Nat) : SpoilEntry := ⟨.spoiled, 300, 9, .underrun, some line, none⟩

theorem test_takeSpoilEntries_takes :
    answers (.takeSpoilEntries 1 1) { loaded with log := ⟨[entry 5, entry 6], 2⟩ }
      (.accept [1, 0, 1, 1, 0x2C, 1, 9, 0, 5, 0, 0, 1]) (fun t => decide (t.log = ⟨[entry 6], 1⟩)) = true := by
  decide +kernel
theorem test_takeSpoilEntries_refuses : refuses (.takeSpoilEntries 1 9) loaded .badValue 1 = true := by decide +kernel
theorem test_getStatus_reports :
    answers (.getStatus 1) { loaded with link := { loaded.link with flags := ⟨false, false, true⟩ } }
      (.accept [0, 0, 0, 0, 0, 0, 0, 0, 1, 3, 0, 0, 4, 0, 2, 0, 0, 2, 2, 2, 1, 0, 0, 0, 0, 16, 0, 16, 0, 16, 0,
        0, 0, 0, 0, 0, 0, 4, 0xF7, 0]) (fun t => decide (t.link.flags = ⟨false, false, false⟩)) = true := by
  decide +kernel
theorem test_setNotices_masks : answers (.setNotices 1 5) { loaded with link := { loaded.link with
      notices := ⟨true, true, true, true⟩ } } (.accept [5]) (fun t =>
    decide (t.link.mask = ⟨true, false, true⟩ ∧ t.link.notices = ⟨true, true, false, true⟩)) = true := by decide +kernel
theorem test_setNotices_refuses : refuses (.setNotices 1 8) loaded .badValue 1 = true := by decide +kernel
theorem test_softReset_accepts : answers (.softReset 1) (exposing flashWork 1 1) (.accept []) (fun t =>
    decide (t.seq.phase = .exposing)) = true := by decide +kernel

/-- The Query Job frame of section 10.9. -/
theorem test_frame_worked_example :
    (sent (.queryJob 0x16 9)).frame.take 7 = [0xC5, 0x03, 0x16, 0x02, 0x00, 0x09, 0x00] := by decide +kernel
/-- The check value of the nine digits under polynomial 1021h and initial value FFFFh. -/
theorem test_crc16_digits : crc16 [0x31, 0x32, 0x33, 0x34, 0x35, 0x36, 0x37, 0x38, 0x39] = 0x29B1 := by decide +kernel

theorem test_messageReceived_takes : after (.messageReceived (sent (.queryJob 22 9)).frame) idle (fun t =>
    decide (t.link.current = some ⟨sent (.queryJob 22 9), .handed⟩ ∧ t.link.receiver = .hunting)) = true := by
  decide +kernel
theorem test_messageReceived_refuses_type : after (.messageReceived (Message.frame ⟨0x82, 4, []⟩)) idle (fun t =>
    decide (t.link.current = some ⟨⟨0x82, 4, []⟩, .replyPending (.refuse .unknownType 0x82)⟩)) = true := by
  decide +kernel
theorem test_interByteGapTimeout_discards :
    after .interByteGapTimeout { idle with link := { idle.link with receiver := .atTag 3 } } (fun t =>
    decide (t.link.receiver = .hunting ∧ t.link.flags.framing = true)) = true := by decide +kernel
theorem test_transmitStart_sends : after (.transmitStart true)
    { idle with log := ⟨[entry 5], 1⟩, link := { idle.link with notices := ⟨false, true, false, false⟩ } } (fun t =>
    decide (t.link.transmitter =
      some ⟨.spoil false, ⟨0x82, 0, [2, 0, 1, 1, 0x2C, 1, 9, 0, 5, 0, 0]⟩⟩)) = true := by decide +kernel

/-- A reply is being sent. -/
def sending (i : Instr) (r : Reply) (s : State) : State :=
  { s with link := { s.link with
      current := some ⟨sent i, .replySending⟩, transmitter := some ⟨.reply r, r.message (sent i)⟩ } }

theorem test_messageTransmitted_takes_next :
    let s := sending (.getStatus 1) (.accept []) idle
    after .messageTransmitted { s with link := { s.link with buffer := [sent (.queryJob 22 9)] } } (fun t =>
    decide (t.link.current = some ⟨sent (.queryJob 22 9), .handed⟩ ∧ t.link.buffer = [] ∧
      t.link.transmitter = none)) = true := by decide +kernel
theorem test_messageTransmitted_soft_resets :
    after .messageTransmitted (sending (.softReset 1) (.accept []) (exposing flashWork 1 1)) (fun t =>
    decide (t.jobs = ⟨[], []⟩ ∧ t.run.halt = some ⟨.softReset, 3, some 7⟩ ∧ t.log.unsent = 1 ∧
      t.lasers = Rgb.same .off ∧ t.link.notices = ⟨true, false, false, false⟩)) = true := by decide +kernel
theorem test_hardwareReset_resets : after .hardwareReset (exposing flashWork 1 1) (fun t =>
    decide (t.resetPin = true ∧ t.run = Run.reset ∧ t.jobs = ⟨[], []⟩ ∧ t.transport.state = .opened)) = true := by
  decide +kernel
theorem test_resetRelease_reads_straps : after (.resetRelease true false) { idle with resetPin := true } (fun t =>
    decide (t.resetPin = false ∧ t.link.rate = .mbit200 ∧ t.lrdy = true)) = true := by decide +kernel

/-! ## Witnesses: states and operands that meet the hypotheses of the statements -/

theorem handed_of {i : Instr} {s : State}
    (h : (decide (s.resetPin = false) && decide ((sent i).decode = some i)) = true) : (handed i s).Handed i (sent i) := by
  simp only [Bool.and_eq_true, decide_eq_true_eq] at h
  exact ⟨h.1, rfl, h.2⟩

/-- A table whose first failing row refuses has that row after rows that pass. -/
theorem splits_of {code : RefusalCode} {d : Nat} : ∀ {checks : List Check},
    firstFailing checks = some (.refuse code d) →
      ∃ before after, checks = before ++ (true, code, d) :: after ∧ passes before
  | [], h => nomatch h
  | (false, c, e) :: rest, h => by
    obtain ⟨before, after, h1, h2⟩ := splits_of (checks := rest) (by simpa [firstFailing] using h)
    exact ⟨(false, c, e) :: before, after, by simp [h1], by simpa [passes] using h2⟩
  | (true, c, e) :: rest, h => by
    simp only [firstFailing, if_true, Option.some.injEq, Reply.refuse.injEq] at h
    exact ⟨[], rest, by simp [h.1, h.2], by simp [passes]⟩

/-! ### Plane Tables and curves -/

theorem meets_EveryCommandGoesOn :
    Instr.indexPulse ≠ .lineDataWriteComplete ∧ Instr.indexPulse ≠ .hardwareReset := by decide

theorem meets_DefinePlaneFillsDescriptor :
    let sel : Half := 63
    let base : Half := 7
    let limit : Half := 4096
    let width : Half := 4096
    let i : Instr := .definePlane 1 sel base limit width
    let s := handed i loaded
    let old := Table.get s.planes sel.toNat
    let shared := s.planes.find? fun e =>
      decide (base.toNat < e.2.base + e.2.limit ∧ e.2.base < base.toNat + limit.toNat)
    s.Handed i (sent i) ∧ passes (selectorChecks sel s ++
      [ (old.isSome, .alreadyDefined, (old.map Plane.base).getD 0),
        (decide (¬ (1 ≤ limit.toNat ∧ limit.toNat ≤ 4096)), .badValue, 2),
        (decide (¬ (256 ≤ width.toNat ∧ width.toNat ≤ 4096 ∧ width.toNat % 256 = 0)), .badValue, 3),
        (decide (65536 < base.toNat + limit.toNat), .bounds, base.toNat + limit.toNat - 65536),
        (shared.isSome, .overlap, (shared.map Prod.fst).getD 0) ]) :=
  ⟨handed_of (by decide +kernel), passes_iff.2 (by decide +kernel)⟩

theorem meets_UndefineAndRewindPlane :
    (handed (.undefinePlane 1 1) loaded).Handed (.undefinePlane 1 1) (sent (.undefinePlane 1 1)) ∧
    (handed (.rewindPlane 1 1) loaded).Handed (.rewindPlane 1 1) (sent (.rewindPlane 1 1)) ∧
    passes (unusedPlaneChecks 1 loaded) ∧
    firstFailing (unusedPlaneChecks 0 (queued exposeWork 1)) = some (.refuse .inUse 1) :=
  ⟨handed_of (by decide +kernel), handed_of (by decide +kernel), passes_iff.2 (by decide +kernel), by decide +kernel⟩

theorem meets_PlaneAndCurveQueriesReport :
    (handed (.queryPlane 1 0x80BF) loaded).Handed (.queryPlane 1 0x80BF) (sent (.queryPlane 1 0x80BF)) ∧
    passes (selectorChecks 0x80BF loaded) ∧ passes (selectorChecks 63 loaded) ∧
    firstFailing (selectorChecks 0x80C0 loaded) = some (.refuse .badValue 1) ∧
    (handed (.queryCurve 1 15) loaded).Handed (.queryCurve 1 15) (sent (.queryCurve 1 15)) ∧
    (handed (.queryCurve 1 16) loaded).Handed (.queryCurve 1 16) (sent (.queryCurve 1 16)) :=
  ⟨handed_of (by decide +kernel), passes_iff.2 (by decide +kernel), passes_iff.2 (by decide +kernel), by decide +kernel,
    handed_of (by decide +kernel), handed_of (by decide +kernel)⟩

theorem meets_LineDataClaimsWrite :
    let sel : Half := 1
    let line : Half := 1
    let count : Half := 256
    let i : Instr := .lineData 1 sel line count fullLine
    let s := handed i loaded
    let busy := { s with arbiter := { s.arbiter with access := some (.read ⟨.global 0, 0, 256⟩ true) } }
    let d := Table.get s.planes sel.toNat
    s.Handed i (sent i) ∧ busy.Handed i (sent i) ∧ passes (selectorChecks sel s ++
      [ (d.isNone, .notDefined, sel.toNat),
        (d.any fun p => decide (p.fill = p.limit), .busy, (d.map Plane.fill).getD 0),
        (d.any fun p => decide (line.toNat ≠ p.fill), .outOfOrder, (d.map Plane.fill).getD 0),
        (d.any fun p => decide (count.toNat ≠ p.width), .badLength, (d.map Plane.width).getD 0) ]) ∧
    busy.planes = s.planes ∧ s.arbiter.access = none ∧ s.arbiter.readWaiting = none ∧ busy.arbiter.access.isSome :=
  ⟨handed_of (by decide +kernel), ⟨rfl, rfl, by decide +kernel⟩, passes_iff.2 (by decide +kernel), by decide +kernel⟩

theorem meets_LineDataWriteStoresLine :
    let w : WriteClaim := ⟨.global 1, 3, fullLine⟩
    let m := sent (.lineData 1 1 1 256 fullLine)
    let undefined : State := { writing with planes := [] }
    let wanted : State := { writing with arbiter := { writing.arbiter with readWaiting := some ⟨.global 0, 1, 256⟩ } }
    writing.resetPin = false ∧ writing.link.current = some ⟨m, .waiting⟩ ∧
    writing.arbiter.access = some (.write w) ∧ (Table.get writing.planes w.sel.wire).isSome ∧
    undefined.link.current = some ⟨m, .waiting⟩ ∧ Table.get undefined.planes w.sel.wire = none ∧
    wanted.arbiter.access = some (.write w) ∧ wanted.arbiter.readWaiting = some ⟨.global 0, 1, 256⟩ := by decide +kernel

/-- The prefetcher begins a set: a frame of one plane is in PREPARING, whose line 1 has just been written. -/
def begins : State :=
  let s := preparing (.expose ⟨.global 1, .global 1, .global 1⟩ 0 true) 1
  { s with
    planes := Table.modify s.planes 1 fun p => { p with fill := 2 }
    seq := { s.seq with cursor := 1, queue := [lineSet 0 1] } }

theorem meets_Prefetched : BeginsSet begins smallReel (.global 1) [] ∧ (Table.get begins.planes 1).isSome :=
  ⟨{ planes := by decide +kernel
     opened := rfl
     phase := by decide
     noSet := rfl
     line := by decide
     filled := fun x hx => by
       obtain rfl := List.mem_singleton.1 hx
       exact ⟨⟨2, 3, 256, 2, 1⟩, by decide +kernel, by decide⟩
     room := by decide
     noRead := ⟨rfl, fun _ _ h => nomatch h⟩ }, by decide +kernel⟩

/-- With a plane left to read. -/
def readingFirst : State :=
  { reading with seq := { reading.seq with assembly := some ⟨1, [], [.global 0, .reel 1]⟩ } }

/-- The read of the first of two planes ends while a write waits. -/
def contended (sets : Nat) : State :=
  { readingFirst with
    seq := { readingFirst.seq with queue := List.replicate sets (lineSet 0 1) }
    arbiter := { readingFirst.arbiter with
      access := some (.read ⟨.global 0, 1, 256⟩ false), writeWaiting := some ⟨.global 1, 3, fullLine⟩ } }

/-- The arbiter's choice between the read of the next plane and the write, at three and at four complete sets. -/
theorem test_prefetchReadComplete_shares :
    after .prefetchReadComplete (contended 3) (fun t =>
      decide (t.arbiter = ⟨some (.read ⟨.reel 1, 6, 256⟩ false), none, some ⟨.global 1, 3, fullLine⟩, .prefetcher⟩)) = true ∧
    after .prefetchReadComplete (contended 4) (fun t =>
      decide (t.arbiter = ⟨some (.write ⟨.global 1, 3, fullLine⟩), some ⟨.reel 1, 6, 256⟩, none, .prefetcher⟩)) = true := by
  decide +kernel

/-- The clauses of PREFETCH_READ_COMPLETE: the last plane of a set, a plane that is not the last beside a waiting
write with three sets and with four, and words to be discarded. -/
theorem meets_PrefetchReadFillsLineSet :
    let dropped : State := { contended 4 with
      arbiter := { (contended 4).arbiter with access := some (.read ⟨.global 0, 1, 256⟩ true) } }
    (reading.resetPin = false ∧ reading.arbiter.access = some (.read ⟨.reel 1, 6, 2⟩ false) ∧
      reading.seq.assembly = some ⟨1, [⟨.global 0, [3, 4]⟩], [.reel 1]⟩) ∧
    dropped.arbiter.access = some (.read ⟨.global 0, 1, 256⟩ true) ∧ loaded.reel = some smallReel ∧
    ∀ sets ∈ [3, 4], (contended sets).resetPin = false ∧ (contended sets).seq.queue.length = sets ∧
      (contended sets).seq.assembly = some ⟨1, [], [.global 0, .reel 1]⟩ ∧
      (contended sets).arbiter.access = some (.read ⟨.global 0, 1, 256⟩ false) ∧
      (contended sets).arbiter.writeWaiting = some ⟨.global 1, 3, fullLine⟩ ∧
      (Table.get (contended sets).planes 0x8001).isSome ∧ (contended sets).reel = some smallReel := by decide +kernel

theorem meets_BeginAndDiscardCurve :
    let s := loaded
    let checks (set : Byte) : List Check :=
      let use := ((Table.get s.curves set.toNat).map CurveSet.use).getD 0
      [(decide (15 < set.toNat), .badValue, 1), (decide (0 < use), .inUse, use)]
    (handed (.beginCurve 1 15) s).Handed (.beginCurve 1 15) (sent (.beginCurve 1 15)) ∧
    (handed (.discardCurve 1 15) s).Handed (.discardCurve 1 15) (sent (.discardCurve 1 15)) ∧
    passes (checks 15) ∧ firstFailing (checks 16) = some (.refuse .badValue 1) :=
  ⟨handed_of (by decide +kernel), handed_of (by decide +kernel), passes_iff.2 (by decide +kernel), by decide +kernel⟩

theorem meets_CurveDataLoadsEntries :
    let set : Byte := 1
    let channel : Byte := 2
    let first : Half := 1
    let count : Half := 1
    let entries : List WireEntry := [⟨4095, 16⟩]
    let i : Instr := .curveData 1 set channel first count entries
    let s := handed i loaded
    let c := Table.get s.curves set.toNat
    let ch : Channel := if channel.toNat = 0 then .red else if channel.toNat = 1 then .green else .blue
    let cursor := (c.map fun c => (c.entries.get ch).length).getD 0
    let bad := entries.findIdx? fun e => decide (4095 < e.level.toNat ∨ 16 < e.duty.toNat)
    s.Handed i (sent i) ∧ passes
      [ (decide (15 < set.toNat), .badValue, 1),
        (decide (2 < channel.toNat), .badValue, 2),
        (decide (¬ (1 ≤ count.toNat ∧ count.toNat ≤ 512)), .badValue, 3),
        (!(c.any fun c => !c.ready), .notReady, 0),
        (decide (first.toNat ≠ cursor), .outOfOrder, cursor),
        (decide (4096 < cursor + count.toNat), .bounds, cursor + count.toNat - 4096),
        (bad.isSome, .badValue, 0x8000 + (first.toNat + bad.getD 0)) ] :=
  ⟨handed_of (by decide +kernel), passes_iff.2 (by decide +kernel)⟩

theorem flatCurve_level : ∀ v, ¬ fallsAt flatCurve v := by
  rintro v ⟨a, b, -, ha, hb, hlt⟩
  have h1 := List.eq_of_mem_replicate (List.mem_of_getElem? ha)
  have h2 := List.eq_of_mem_replicate (List.mem_of_getElem? hb)
  subst h1 h2
  exact absurd hlt (by decide)

/-- The clauses of Commit Curve: set numbers 15 and 16, an EMPTY and a READY set, a channel that is short, a
complete set that falls nowhere, and one that falls at green 1801 and nowhere before. -/
theorem meets_CommitCurveMakesReady :
    (∀ n : Byte, (handed (.commitCurve 1 n) loaded).Handed (.commitCurve 1 n) (sent (.commitCurve 1 n))) ∧
    (Table.get loaded.curves 0).all CurveSet.ready ∧ (Table.get loaded.curves 15).all CurveSet.ready ∧
    (∃ c, Table.get loaded.curves 1 = some c ∧ c.ready = false ∧ c.entries.red.length < 4096) ∧
    ((loading flatCurve).entries.green.length = 4096 ∧ (∀ v, ¬ fallsAt (loading flatCurve).entries.green v)) ∧
    ((loading slipCurve).entries.green.length = 4096 ∧ fallsAt (loading slipCurve).entries.green 1801 ∧
      ∀ v, v < 1801 → ¬ fallsAt (loading slipCurve).entries.green v) := by
  refine ⟨fun n => ⟨rfl, rfl, rfl⟩, by decide +kernel, by decide +kernel, ⟨_, rfl, rfl, by decide⟩,
    ⟨flatCurve_length, flatCurve_level⟩, slipCurve_length, ?_, ?_⟩
  · refine ⟨⟨2000, 9⟩, ⟨2200, 8⟩, by decide, ?_, ?_, by decide⟩
    · show slipCurve[1800]? = _
      rw [slipCurve, List.getElem?_append_left (by rw [List.length_replicate]; decide),
        List.getElem?_replicate_of_lt (by decide)]
    · show slipCurve[1801]? = _
      rw [slipCurve, List.getElem?_append_right (by rw [List.length_replicate]), List.length_replicate]
      rfl
  · rintro v hv ⟨a, b, -, ha, hb, hlt⟩
    have ha' : slipCurve[v - 1]? = some a := ha
    have hb' : slipCurve[v]? = some b := hb
    rw [slipCurve, List.getElem?_append_left (by rw [List.length_replicate]; omega)] at ha' hb'
    have h1 := List.eq_of_mem_replicate (List.mem_of_getElem? ha')
    have h2 := List.eq_of_mem_replicate (List.mem_of_getElem? hb')
    subst h1 h2
    exact absurd hlt (by decide)

/-- A line of a green row of single pixels, the first of them of duty 5 and the second dark. -/
def mixedLine : State :=
  { exposing flashWork 1 1 with
    drive := some ⟨1, 1, 100, some (Rgb.same 2048),
      ⟨.alike ⟨0, 0, 0, false⟩, .each [⟨600, 5, 5, false⟩, ⟨0, 0, 0, false⟩], .alike ⟨5, 16, 0, false⟩⟩, false⟩ }

/-- What a channel presents: the pulse until 100 ns, then pixels of 10 ns, 256 of them. The lit sub-periods of the
first green pixel are 5 to 9; a dark pixel is not blanked. -/
theorem test_output_of_line :
    [0, 99999, 100000, 103124, 103125, 106249, 106250, 110000].map (mixedLine.output .green) =
      [⟨2048, true, false⟩, ⟨2048, true, false⟩, ⟨600, false, false⟩, ⟨600, false, false⟩, ⟨600, true, false⟩,
        ⟨600, true, false⟩, ⟨600, false, false⟩, ⟨0, false, false⟩] ∧
    [100000, 2659999, 2660000].map (mixedLine.output .blue) = [⟨5, true, false⟩, ⟨5, true, false⟩, ⟨0, false, true⟩] ∧
    loaded.output .blue 100000 = ⟨0, false, true⟩ := by decide +kernel

theorem meets_PixelDriveFollowsEntry :
    (⟨850, 0⟩ : DriveEntry).duty ≤ 16 ∧ (⟨4095, 16⟩ : DriveEntry).duty ≤ 16 ∧ (⟨4095, 16⟩ : DriveEntry).duty ≠ 0 ∧
    loaded.drive = none ∧ mixedLine.scan.geometry.pixelPeriod = 10000 ∧ (mixedLine.reel.map Reel.width).getD 0 = 256 ∧
    mixedLine.drive.map LineDrive.delay = some 100 ∧ mixedLine.drive.bind LineDrive.pulse = some (Rgb.same 2048) ∧
    mixedLine.drive.map (fun l => l.pixels.get .blue) = some (.alike ⟨5, 16, 0, false⟩) ∧
    mixedLine.drive.map (fun l => l.pixels.get .green) = some (.each [⟨600, 5, 5, false⟩, ⟨0, 0, 0, false⟩]) := by
  decide +kernel

theorem meets_StoppedRunOptionsAreSet :
    let s := loaded
    let options (b : Byte) : List Check :=
      [(decide (s.run.state ≠ .stopped), .busy, 0), (decide (2 < b.toNat), .badValue, 1)]
    let timing (timeout : Half) (settle : Byte) : List Check :=
      [ (decide (s.run.state ≠ .stopped), .busy, 0),
        (decide (¬ (10 ≤ timeout.toNat ∧ timeout.toNat ≤ 2000)), .badValue, 1),
        (decide (¬ (1 ≤ settle.toNat ∧ settle.toNat ≤ 250)), .badValue, 2) ]
    (handed (.setDriveOptions 1 2) s).Handed (.setDriveOptions 1 2) (sent (.setDriveOptions 1 2)) ∧
    passes (options 2) ∧ firstFailing (options 3) = some (.refuse .badValue 1) ∧
    (handed (.setTransportTiming 1 2000 1) s).Handed (.setTransportTiming 1 2000 1) (sent (.setTransportTiming 1 2000 1)) ∧
    passes (timing 2000 1) ∧ firstFailing (timing 2001 1) = some (.refuse .badValue 1) ∧
    firstFailing (timing 10 251) = some (.refuse .badValue 2) :=
  ⟨handed_of (by decide +kernel), passes_iff.2 (by decide +kernel), by decide +kernel, handed_of (by decide +kernel),
    passes_iff.2 (by decide +kernel), by decide +kernel⟩

/-! ### Jobs -/

theorem meets_QueueJobChecksInOrder :
    (handed (.queueJob 1 exposeItems) loaded).Handed (.queueJob 1 exposeItems) (sent (.queueJob 1 exposeItems)) ∧
    firstFailing (queueRows { exposeItems with tag := 0 } loaded) = some (.refuse .badValue 1) ∧
    firstFailing (queueRows { exposeItems with selectors := ⟨0, 64, 0⟩ } loaded) = some (.refuse .badValue 5) ∧
    firstFailing (queueRows { exposeItems with curveSet := 1 } loaded) = some (.refuse .notReady 1) :=
  ⟨handed_of (by decide +kernel), by decide +kernel⟩

/-- A HOLD_ON_EMPTY run waits for a job. -/
def waiting : State := { loaded with run := ⟨.running, .holdOnEmpty, .none, 2000, none⟩ }

theorem meets_QueueJobAcceptsExpose :
    let i := Instr.queueJob 1 exposeItems
    (handed i loaded).Handed i (sent i) ∧ passes (queueRows exposeItems (handed i loaded)) ∧
    (handed i waiting).Handed i (sent i) ∧ passes (queueRows exposeItems (handed i waiting)) ∧
    exposeItems.kind.toNat = 0 ∧ loaded.run.state ≠ .running ∧
    (waiting.run.state = .running ∧ waiting.seq.phase = .between ∧ waiting.jobs.live = []) ∧
    (Selector.global 0).inTable ∧ (Selector.reel 1).inTable ∧
    (Selector.global 0).wire = exposeItems.selectors.red.toNat ∧
    (Selector.global 0).wire = exposeItems.selectors.green.toNat ∧
    (Selector.reel 1).wire = exposeItems.selectors.blue.toNat :=
  ⟨handed_of (by decide +kernel), passes_iff.2 (by decide +kernel), handed_of (by decide +kernel),
    passes_iff.2 (by decide +kernel), by decide +kernel, by decide +kernel, by decide +kernel, by show (0 : Nat) < 64; decide,
    by show (1 : Nat) < 192; decide, by decide +kernel⟩

def flashItems : QueueJobItems := ⟨9, 1, 6, ⟨0, 0, 0⟩, 0, ⟨4095, 0, 1⟩, 1, 0⟩
def blankItems : QueueJobItems := ⟨9, 2, 0, ⟨0, 0, 0⟩, 0, ⟨0, 0, 0⟩, 1, 0⟩
/-- The clauses of an accepted FLASH or BLANK job; a BLANK frame that finds fresh film registered is passed in the step
that brings its job to the head. -/
theorem meets_QueueJobAcceptsFlashAndBlank :
    let i := Instr.queueJob 1 flashItems
    let b := Instr.queueJob 1 blankItems
    (handed i waiting).Handed i (sent i) ∧ passes (queueRows flashItems (handed i waiting)) ∧ flashItems.kind.toNat = 1 ∧
    (waiting.run.state = .running ∧ waiting.seq.phase = .between ∧ waiting.jobs.live = []) ∧
    (handed b waiting).Handed b (sent b) ∧ passes (queueRows blankItems (handed b waiting)) ∧
    (handed b loaded).Handed b (sent b) ∧ passes (queueRows blankItems (handed b loaded)) ∧ blankItems.kind.toNat = 2 ∧
    loaded.run.state ≠ .running ∧ waiting.transport.gate = .fresh ∧ waiting.transport.state = .registered ∧
    waiting.monitor.channels.map MonitorChannel.lost = Rgb.same false ∧
    answers (.queueJob 1 blankItems) waiting (.accept [1, 0]) (fun t =>
      decide (t.jobs = ⟨[], [⟨9, .blank, 1, 1, 0, 0, 0, some ⟨3, 3⟩, some .complete⟩]⟩ ∧ t.transport.gate = .used ∧
        t.seq.phase = .between ∧ t.run = waiting.run)) = true :=
  ⟨handed_of (by decide +kernel), passes_iff.2 (by decide +kernel), by decide +kernel, by decide +kernel,
    handed_of (by decide +kernel), passes_iff.2 (by decide +kernel),
    handed_of (by decide +kernel), passes_iff.2 (by decide +kernel), by decide +kernel⟩


/-- Two LIVE jobs and a RESULT slot. -/
def twoJobs : State :=
  let s := queued exposeWork 1
  { s with jobs := ⟨[newJob 7 exposeWork 1, newJob 8 .blank 1], [{ newJob 9 .blank 1 with outcome := some .complete }]⟩ }

theorem usesCounted_of {s : State} (j : Job) (rest : List Job) (hl : s.jobs.live = j :: rest) 
    (hw : j.work = exposeWork ∨ j.work = flashWork) (hr : ∀ k ∈ rest, k.work = .blank)
    (h : (decide (∀ e ∈ s.planes, e.2.use = s.planeUsers e.1) && decide (∀ e ∈ s.curves, e.2.use = s.curveUsers e.1) &&
      (Table.get s.planes 0).isSome && (Table.get s.planes 0x8001).isSome &&
      (Table.get s.curves 0).any CurveSet.ready && s.reel.isSome && decide (Table.wf s.planes) &&
      decide (Table.wf s.curves)) = true) : UsesCounted s := by
  simp only [Bool.and_eq_true, decide_eq_true_eq] at h
  obtain ⟨⟨⟨⟨⟨⟨⟨h1, h2⟩, h3⟩, h4⟩, h5⟩, h6⟩, h7⟩, h8⟩ := h
  have hplanes : ∀ sel ∈ j.work.planes, sel = .global 0 ∨ sel = .reel 1 := by rcases hw with hw | hw <;> rw [hw] <;> decide
  have hcurve : j.work.curve = some 0 := by rcases hw with hw | hw <;> rw [hw] <;> rfl
  have hno : ∀ k ∈ rest, k.work.planes = [] ∧ k.work.curve = none := fun k hk => by rw [hr k hk]; decide
  refine ⟨h1, h2, fun k hk sel hsel => ?_, fun k hk n hn => ?_, fun hn => absurd h6 (by simp [hn]), h7, h8⟩
  · rw [hl] at hk
    rcases List.mem_cons.1 hk with rfl | hk
    · rcases hplanes sel hsel with rfl | rfl
      · exact ⟨show 0 < 64 by decide, h3⟩
      · exact ⟨show 1 < 192 by decide, h4⟩
    · rw [(hno k hk).1] at hsel; cases hsel
  · rw [hl] at hk
    rcases List.mem_cons.1 hk with rfl | hk
    · rw [hcurve] at hn
      obtain rfl : 0 = n := Option.some.inj hn
      cases hc : Table.get s.curves 0 with
      | none => rw [hc] at h5; cases h5
      | some c => rw [hc] at h5; exact ⟨c, rfl, h5⟩
    · rw [(hno k hk).2] at hn; cases hn

theorem usesCounted_twoJobs (i : Instr) : UsesCounted (handed i twoJobs) :=
  usesCounted_of (newJob 7 exposeWork 1) [newJob 8 .blank 1] rfl (.inl rfl) (by simp [newJob]) (by
    show (decide (∀ e ∈ twoJobs.planes, e.2.use = twoJobs.planeUsers e.1) &&
      decide (∀ e ∈ twoJobs.curves, e.2.use = twoJobs.curveUsers e.1) &&
      (Table.get twoJobs.planes 0).isSome && (Table.get twoJobs.planes 0x8001).isSome &&
      (Table.get twoJobs.curves 0).any CurveSet.ready && twoJobs.reel.isSome && decide (Table.wf twoJobs.planes) &&
      decide (Table.wf twoJobs.curves)) = true
    decide +kernel)

theorem meets_CancelAndQueryJob :
    (handed (.cancelJob 1 8) twoJobs).Handed (.cancelJob 1 8) (sent (.cancelJob 1 8)) ∧
    UsesCounted (handed (.cancelJob 1 8) twoJobs) ∧
    twoJobs.jobs.live = [newJob 7 exposeWork 1] ++ newJob 8 .blank 1 :: [] ∧
    twoJobs.jobs.results = [] ++ { newJob 9 .blank 1 with outcome := some .complete } :: [] ∧
    (∀ j ∈ twoJobs.jobs.live, j.tag ≠ 9) ∧ twoJobs.run.state = .stopped ∧
    (preparing exposeWork 1).run.state = .running ∧
    (handed (.queryJob 1 9) twoJobs).Handed (.queryJob 1 9) (sent (.queryJob 1 9)) ∧
    (∀ j ∈ twoJobs.jobs.live ++ twoJobs.jobs.results, j.tag ≠ 0) :=
  ⟨handed_of (by decide +kernel), usesCounted_twoJobs _, by decide +kernel, by decide +kernel, by decide +kernel,
    by decide +kernel, by decide +kernel, handed_of (by decide +kernel), by decide +kernel⟩

/-! ### Runs -/

theorem meets_StartRunBeginsRun :
    let s := handed (.startRun 1 0 10000) (queued exposeWork 1)
    s.Handed (.startRun 1 0 10000) (sent (.startRun 1 0 10000)) ∧ s.run.state = .stopped ∧
    leadInOk 10000 = true ∧ leadInOk 10 = true ∧ leadInOk 0 = true ∧ leadInOk 9 = false ∧ leadInOk 10001 = false ∧
    passes (readyRows .endOnEmpty s) ∧
    firstFailing (readyRows .endOnEmpty loaded) = some (.refuse .notReady 1) ∧
    firstFailing (readyRows .holdOnEmpty { loaded with lasers := ⟨.ready, .off, .off⟩ }) =
      some (.refuse .notReady 0x0104) :=
  ⟨handed_of (by decide +kernel), by decide +kernel, by decide +kernel, by decide +kernel, by decide +kernel,
    by decide +kernel, by decide +kernel, passes_iff.2 (by decide +kernel), by decide +kernel⟩

/-- The clauses of Stop Run: PAUSED; EXPOSING with NOW and with AT_FRAME; PREPARING with AT_JOB; a waiting run. -/
theorem meets_StopRunActsOnPhase :
    (∀ mode : Byte, ∀ s : State, s.resetPin = false →
      (handed (.stopRun 1 mode) s).Handed (.stopRun 1 mode) (sent (.stopRun 1 mode))) ∧
    StopMode.code .now = max (StopMode.code .none) (3 : Byte).toNat ∧
    StopMode.code .atFrame = max (StopMode.code .atFrame) (1 : Byte).toNat ∧
    paused.run.state = .paused ∧ paused.resetPin = false ∧
    (exposing flashWork 1 1).run.state = .running ∧ (exposing flashWork 1 1).seq.phase = .exposing ∧
    (preparing flashWork 1).seq.phase = .preparing ∧ (preparing flashWork 1).run.state ≠ .stopped ∧
    (waiting.seq.phase = .between ∧ waiting.jobs.live = [] ∧ waiting.run.state = .running) :=
  ⟨fun _ _ h => ⟨h, rfl, rfl⟩, by decide +kernel⟩

theorem meets_PauseAndResumeRun :
    (∀ s : State, s.resetPin = false → (handed (.pauseRun 1) s).Handed (.pauseRun 1) (sent (.pauseRun 1))) ∧
    ((exposing flashWork 1 1).run.state = .running ∧ (exposing flashWork 1 1).seq.phase = .exposing ∧
      (preparing flashWork 1).run.state = .running ∧ (preparing flashWork 1).seq.phase = .preparing ∧
      loaded.run.state = .stopped) ∧
    (handed (.resumeRun 1 0) paused).Handed (.resumeRun 1 0) (sent (.resumeRun 1 0)) ∧ paused.run.state = .paused ∧
    leadInOk 0 = true ∧ passes (readyRows paused.run.mode (handed (.resumeRun 1 0) paused)) :=
  ⟨fun _ h => ⟨h, rfl, rfl⟩, by decide +kernel, handed_of (by decide +kernel), by decide +kernel, by decide +kernel,
    passes_iff.2 (by decide +kernel)⟩

/-! ### The frame cycle -/

theorem meets_LeadInExpiryHaltsLateFrame :
    let s := preparing exposeWork 1
    let f := preparing flashWork 1
    s.resetPin = false ∧ s.seq.phase = .preparing ∧ s.seq.leadTimer ≠ none ∧
    (s.transport.state = .registered ∧ s.transport.gate = .fresh) ∧
    (s.jobs.live.map Job.work = [exposeWork] ∧ s.seq.queue.length < min 8 ((s.reel.map Reel.lines).getD 0)) ∧
    (f.seq.phase = .preparing ∧ f.jobs.live.map Job.work = [flashWork]) ∧
    ({ s with transport := { s.transport with gate := .used } } : State).transport.gate ≠ .fresh := by decide +kernel

/-- The last line of a frame that has suspect mark `mark` is under way. -/
def lastLine (work : Work) (count : Nat) (mark : Option Channel) : State :=
  let s := exposing work count 1
  { s with seq := { s.seq with suspect := mark } }

/-- The clauses of a clean end: the job complete or not, a channel with every reading and one without; and a stop due,
which leaves the counted job and the means in place. -/
theorem meets_CleanEndCountsFrame :
    let s := lastLine exposeWork 1 none
    let full : MonitorChannel := { MonitorChannel.reset with sum := 9, count := 2 }
    let stop : State := { lastLine flashWork 2 none with
      run := { s.run with pendingStop := .atFrame }
      monitor := { s.monitor with channels := ⟨full, MonitorChannel.reset, MonitorChannel.reset⟩ } }
    s.resetPin = false ∧ s.seq.phase = .exposing ∧ s.jobs.live = [newJob 7 exposeWork 1] ∧
    s.seq.lineCounter + 1 = (s.reel.map Reel.lines).getD 0 ∧ s.seq.suspect = none ∧
    (newJob 7 exposeWork 1).framesDone + 1 = (newJob 7 exposeWork 1).repeatCount ∧
    (newJob 7 exposeWork 2).framesDone + 1 ≠ (newJob 7 exposeWork 2).repeatCount ∧
    s.run.pendingStop = .none ∧ s.run.state = .running ∧ s.transport.gate = .used ∧
    s.monitor.channels.red.count ≠ s.seq.lineCounter + 1 ∧ stop.monitor.channels.red.count = stop.seq.lineCounter + 1 ∧
    stop.seq.phase = .exposing ∧ stop.run.pendingStop = .atFrame ∧
    after .frameCleanEnd stop (fun t => decide (t.jobs.live.map Job.framesDone = [1] ∧
      t.run.halt = some ⟨.stopRequest, 3, some 7⟩ ∧ t.monitor.channels.map MonitorChannel.valid = ⟨true, false, false⟩ ∧
      t.monitor.channels.red.mean = 4)) = true := by decide +kernel

theorem usesCounted_lastLine : UsesCounted (lastLine exposeWork 1 none) :=
  usesCounted_of (newJob 7 exposeWork 1) [] rfl (.inl rfl) (by simp) (by decide +kernel)

/-- The clauses of a completing job: EXPOSE and FLASH. -/
theorem meets_CompletedJobReleasesPlanes :
    let s := lastLine exposeWork 1 none
    let f := lastLine flashWork 1 none
    s.resetPin = false ∧ s.seq.phase = .exposing ∧ s.jobs.live = [newJob 7 exposeWork 1] ∧
    (newJob 7 exposeWork 1).work = .expose ⟨.global 0, .global 0, .reel 1⟩ 0 true ∧
    s.seq.lineCounter + 1 = (s.reel.map Reel.lines).getD 0 ∧ UsesCounted s ∧
    (Table.get s.planes 0x8001).map Plane.use = some 1 ∧ (Table.get s.planes 1).isSome ∧
    f.jobs.live = [newJob 7 flashWork 1] ∧ UsesCounted f ∧ (Table.get f.curves 0).map CurveSet.use = some 1 ∧
    after .frameCleanEnd f (fun t => decide ((Table.get t.curves 0).map CurveSet.use = some 0 ∧
      t.planes = f.planes)) = true :=
  ⟨rfl, rfl, rfl, rfl, rfl, usesCounted_lastLine, by decide +kernel, by decide +kernel, rfl,
    usesCounted_of (newJob 7 flashWork 1) [] rfl (.inr rfl) (by simp) (by decide +kernel), by decide +kernel,
    by decide +kernel⟩

/-- The clauses of a suspect end: the job not complete, and complete; the run halts with the means invalid. -/
theorem meets_SuspectEndHaltsRun :
    let s := lastLine flashWork 2 (some .blue)
    let last := lastLine flashWork 1 (some .blue)
    s.resetPin = false ∧ s.seq.phase = .exposing ∧ s.jobs.live = [newJob 7 flashWork 2] ∧
    s.seq.lineCounter + 1 = (s.reel.map Reel.lines).getD 0 ∧ s.seq.suspect = some .blue ∧
    (newJob 7 flashWork 2).framesDone + 1 ≠ (newJob 7 flashWork 2).repeatCount ∧
    last.seq.suspect = some .blue ∧ (newJob 7 flashWork 1).framesDone + 1 = (newJob 7 flashWork 1).repeatCount ∧
    after .frameCleanEnd last (fun t => decide (t.jobs.live = [] ∧ t.run.halt = some ⟨.monitorLost, 3, none⟩ ∧
      t.log.unsent = 1 ∧ t.monitor.channels.map MonitorChannel.valid = Rgb.same false)) = true := by decide +kernel

/-- The clauses of the passing of a BLANK frame: the job complete or not, and no stop or AT_JOB pending. With AT_JOB
pending, the frame that completes the job ends the run with STOP_REQUEST. -/
theorem meets_BlankFrameIsPassed :
    let s : State := { preparing .blank 1 with transport := (moving .settling 4 none).transport }
    let stop : State := { s with run := { s.run with pendingStop := .atJob } }
    s.resetPin = false ∧ s.seq.phase = .preparing ∧ s.jobs.live = [newJob 7 .blank 1] ∧
    s.transport.state = .settling ∧ s.transport.settleEnds = some .pullDown ∧ s.transport.series = none ∧
    s.pins.levels.gateClosed = true ∧ s.run.pendingStop = .none ∧ s.run.state = .running ∧
    stop.run.pendingStop = .atJob ∧ (newJob 7 .blank 1).framesDone + 1 = (newJob 7 .blank 1).repeatCount ∧
    (newJob 7 .blank 2).framesDone + 1 ≠ (newJob 7 .blank 2).repeatCount ∧
    after .settleTimerExpiry stop (fun t => decide (t.run.halt = some ⟨.stopRequest, 4, none⟩ ∧
      t.jobs.results.map Job.outcome = [some .complete])) = true := by decide +kernel

/-- An SOS that is passed on: 50,000 ns after the one before it, or late by so much that the period is a miss. -/
theorem syncPassed_of {s : State} (h0 : s.resetPin = false) (h : s.scan = loaded.scan) :
    SyncPassed 50000 50000 s ∧ SyncPassed 60000 50000 s ∧ goodFor 60000 s.scan.geometry.tolerance 50000 = false := by
  refine ⟨⟨h0, ?_, ?_, ?_, ⟨List.replicate 8 50000, ?_, ?_⟩, .inl ?_⟩,
    ⟨h0, ?_, ?_, ?_, ⟨List.replicate 8 50000, ?_, ?_⟩, .inr ?_⟩, ?_⟩ <;> rw [h] <;> decide +kernel

theorem meets_FacetSyncBeginsExposure :
    let s := { preparing exposeWork 1 with seq := { (preparing exposeWork 1).seq with queue := [lineSet 0 1, lineSet 1 1] } }
    (SyncPassed 50000 50000 s ∧ SyncPassed 60000 50000 s ∧ goodFor 60000 s.scan.geometry.tolerance 50000 = false) ∧
    s.seq.phase = .preparing ∧ s.jobs.live = [newJob 7 exposeWork 1] ∧ s.reel = some smallReel ∧
    1 ≤ smallReel.lines ∧ exposeWork ≠ .blank ∧ min 8 smallReel.lines ≤ s.seq.queue.length ∧
    s.transport.state = .registered ∧ s.transport.gate = .fresh ∧ s.lasers = ⟨.ready, .ready, .ready⟩ ∧
    s.pins.levels.interlock = true ∧ s.monitor.channels.map MonitorChannel.lost = Rgb.same false ∧
    ¬ (min 8 smallReel.lines ≤ (preparing exposeWork 1).seq.queue.length) :=
  ⟨syncPassed_of rfl rfl, by decide +kernel⟩

/-- The clauses of a facet sync in EXPOSING; a miss below the limit drives line 1 and stands in the miss counter, and the
saturation mark of a line is carried to the next. -/
theorem meets_FacetSyncDrivesNextLine :
    let s := exposing exposeWork 1 0
    let last := exposing exposeWork 1 1
    let driven : State := { last with drive := none }
    ((SyncPassed 50000 50000 s ∧ SyncPassed 60000 50000 s ∧ goodFor 60000 s.scan.geometry.tolerance 50000 = false) ∧
      SyncPassed 50000 50000 last ∧ SyncPassed 50000 50000 driven) ∧
    s.seq.phase = .exposing ∧ s.jobs.live = [newJob 7 exposeWork 1] ∧ exposeWork ≠ .blank ∧
    s.reel = some smallReel ∧ s.drive.isSome ∧ s.seq.lineCounter + 1 < smallReel.lines ∧ s.seq.queue = [] ∧
    ({ s with seq := { s.seq with queue := [lineSet 1 1] } } : State).seq.queue ≠ [] ∧
    last.seq.phase = .exposing ∧ last.drive.isSome ∧ last.seq.lineCounter + 1 = smallReel.lines ∧
    driven.seq.phase = .exposing ∧ driven.drive = none ∧ driven.seq.lineCounter + 1 = smallReel.lines ∧
    after (.sosPulse 60000) (exposing flashWork 1 0) (fun t => decide (t.seq.lineCounter = 1 ∧
      t.drive.map LineDrive.line = some 1 ∧ t.scan.misses = 1)) = true ∧
    (let lit := exposing flashWork 1 0
     after (.sosPulse 50000) { lit with drive := lit.drive.map fun d => { d with markBefore := true } } (fun t =>
       decide (t.drive.map LineDrive.markBefore = some true ∧ t.seq.saturation = true)) &&
     after (.sosPulse 50000) lit (fun t => decide (t.drive.map LineDrive.markBefore = some false))) = true :=
  ⟨⟨syncPassed_of rfl rfl, (syncPassed_of (s := exposing exposeWork 1 1) rfl rfl).1,
    (syncPassed_of (s := { exposing exposeWork 1 1 with drive := none }) rfl rfl).1⟩, by decide +kernel⟩

/-! ### Film transport -/

def reelItems : OpenReelItems := ⟨65535, 65534, 8, 4096, 4096, 20000⟩

theorem meets_ReelIsOpenedAndClosed :
    let p := reelItems
    let s := handed (.openReel 1 p) idle
    let t := handed (.closeReel 1) twoJobs
    s.Handed (.openReel 1 p) (sent (.openReel 1 p)) ∧ passes
      [ (decide (s.run.state ≠ .stopped), .busy, 0),
         (decide (s.transport.state = .advancing ∨ s.transport.state = .settling), .busy, 1),
         (s.reel.isSome, .reelOpen, 0),
         (decide (p.capacity.toNat = 0), .badValue, 1),
         (decide (¬ p.start.toNat < p.capacity.toNat), .badValue, 2),
         (decide (¬ (2 ≤ p.perforations.toNat ∧ p.perforations.toNat ≤ 8)), .badValue, 3),
         (decide (¬ (1 ≤ p.lines.toNat ∧ p.lines.toNat ≤ 4096)), .badValue, 4),
         (decide (¬ (256 ≤ p.width.toNat ∧ p.width.toNat ≤ 4096 ∧ p.width.toNat % 256 = 0)), .badValue, 5),
         (decide (20000 < p.offset.toNat), .badValue, 6) ] ∧
    t.Handed (.closeReel 1) (sent (.closeReel 1)) ∧ UsesCounted t ∧ passes
      [ (decide (t.run.state ≠ .stopped), .busy, 0),
         (decide (t.transport.state = .advancing ∨ t.transport.state = .settling), .busy, 1),
         (t.reel.isNone, .noReel, 0),
         (decide (t.log.entries ≠ []), .logNotEmpty, t.log.entries.length) ] :=
  ⟨handed_of (by decide +kernel), passes_iff.2 (by decide +kernel), handed_of (by decide +kernel),
    usesCounted_twoJobs _, passes_iff.2 (by decide +kernel)⟩

theorem meets_RegisterGateAndClearTransport :
    let s := handed (.registerGate 1 1) idle
    let checks (gate : Byte) : List Check :=
      [ (decide (1 < gate.toNat), .badValue, 1),
        (decide (s.transport.state ≠ .opened), .busy, 0),
        (decide (s.pins.levels.tensionOk = false), .transportFault, 2) ]
    let f := handed (.clearTransport 1) (moving (.fault .gate) 0 none)
    s.Handed (.registerGate 1 1) (sent (.registerGate 1 1)) ∧ passes (checks 1) ∧
    firstFailing (checks 2) = some (.refuse .badValue 1) ∧
    f.Handed (.clearTransport 1) (sent (.clearTransport 1)) ∧ f.transport.state = .fault .gate ∧
    f.pins.levels.filmPresent = true ∧ loaded.transport.state = .registered :=
  ⟨handed_of (by decide +kernel), passes_iff.2 (by decide +kernel), by decide +kernel, handed_of (by decide +kernel),
    by decide +kernel⟩

theorem meets_AdvanceFramesMakesSeries :
    let i := Instr.advanceFrames 1 6
    let s := handed i loaded
    let checks (count : Byte) : List Check :=
      let n := if count.toNat = 0 then 256 else count.toNat
      let last := (s.reel.map fun r => r.capacity - 1).getD 0
      [ (decide (s.run.state ≠ .stopped ∨ s.transport.state ≠ .registered), .busy, 0),
        (s.reel.isNone, .noReel, 0),
        (decide (last < s.transport.position + n), .endOfReel, last - s.transport.position) ]
    let m := moving .settling 4 (some ⟨2, 0⟩)
    s.Handed i (sent i) ∧ passes (checks 6) ∧ firstFailing (checks 7) = some (.refuse .endOfReel 6) ∧
    firstFailing (checks 0) = some (.refuse .endOfReel 6) ∧ s.pins.levels.endSensor = false ∧
    m.resetPin = false ∧ m.run.state = .stopped ∧ m.seq.phase = .between ∧ m.transport.state = .settling ∧
    m.pins.levels.gateClosed = true ∧ m.transport.settleEnds = some .pullDown ∧
    m.transport.series = some ⟨2, 0⟩ ∧ m.reel = some smallReel ∧ m.transport.position + 1 ≠ smallReel.capacity - 1 :=
  ⟨handed_of (by decide +kernel), passes_iff.2 (by decide +kernel), by decide +kernel⟩

theorem meets_PullDownRegistersFilm :
    let a := moving .advancing 3 none
    let m := moving .settling 4 none
    a.resetPin = false ∧ a.transport.state = .advancing ∧ a.reel = some smallReel ∧
    a.transport.perfs + 1 = smallReel.perforations ∧
    (moving .advancing 2 none).transport.perfs + 1 ≠ smallReel.perforations ∧
    m.transport.state = .settling ∧ m.pins.levels.gateClosed = true ∧ m.seq.phase ≠ .preparing ∧
    m.transport.settleEnds = some .pullDown ∧ m.transport.series = none ∧ loaded.transport.state ≠ .advancing := by
  decide +kernel

/-- The clauses of the film sensors. A fault raises LINES in a STOPPED run and no HALT, and both in a frame. -/
theorem meets_FilmSensorsMoveTransport :
    loaded.resetPin = false ∧ loaded.pins.levels.filmPresent = true ∧ loaded.transport.state = .registered ∧
    loaded.pins.levels.tensionOk = true ∧ loaded.pins.levels.gateClosed = true ∧ loaded.pins.levels.endSensor = false ∧
    (moving (.fault .gate) 0 none).transport.state = .fault .gate ∧ State.reset.transport.state = .empty ∧
    State.reset.pins.levels.filmPresent = false ∧
    after (.filmPresentChange false) loaded (fun t => decide (t.transport.state = .fault .filmLost ∧
      t.run.halt = loaded.run.halt ∧ t.link.notices = ⟨false, false, false, true⟩)) = true ∧
    after (.gateClosedChange false) (exposing flashWork 1 0) (fun t => decide (t.transport.state = .fault .gate ∧
      t.link.notices = ⟨true, false, false, true⟩)) = true := by decide +kernel

/-! ### Scan timing -/

def geometryItems : GeometryItems := ⟨16, 200000, 40000, 5000, 8, 64⟩

theorem meets_ScanRequestsSetUpScan :
    let p := geometryItems
    let s := loaded
    let values : List Half := [2000, -2000, 0, 0, 0, 0, 0, 0]
    let bad := values.findIdx? fun v => decide (v.toInt < -2000 ∨ 2000 < v.toInt)
    (handed (.setScanGeometry 1 p) s).Handed (.setScanGeometry 1 p) (sent (.setScanGeometry 1 p)) ∧ passes
      [ (decide (s.run.state ≠ .stopped), .busy, 0),
        (decide (s.scan.state = .calibrating), .busy, 1),
        (decide (¬ (4 ≤ p.facets.toNat ∧ p.facets.toNat ≤ 16)), .badValue, 1),
        (decide (¬ (10000 ≤ p.period.toNat ∧ p.period.toNat ≤ 200000)), .badValue, 2),
        (decide (¬ (2000 ≤ p.pixelPeriod.toNat ∧ p.pixelPeriod.toNat ≤ 40000)), .badValue, 3),
        (decide (¬ (50 ≤ p.tolerance.toNat ∧ p.tolerance.toNat ≤ 5000)), .badValue, 4),
        (decide (¬ (1 ≤ p.missLimit.toNat ∧ p.missLimit.toNat ≤ 8)), .badValue, 5),
        (decide (¬ (1 ≤ p.revolutions.toNat ∧ p.revolutions.toNat ≤ 64)), .badValue, 6) ] ∧
    (handed (.loadFacetCorrections 1 8 values) s).Handed (.loadFacetCorrections 1 8 values)
      (sent (.loadFacetCorrections 1 8 values)) ∧ passes
      [ (decide (s.run.state ≠ .stopped), .busy, 0),
        (decide ((8 : Byte).toNat ≠ s.scan.geometry.facets), .badValue, s.scan.geometry.facets),
        (bad.isSome, .badValue, 0x8000 + bad.getD 0) ] ∧
    (handed (.calibrateScan 1) s).Handed (.calibrateScan 1) (sent (.calibrateScan 1)) ∧ passes
      [(decide (s.run.state ≠ .stopped), .busy, 0), (decide (s.scan.state = .calibrating), .busy, 1)] :=
  ⟨handed_of (by decide +kernel), passes_iff.2 (by decide +kernel), handed_of (by decide +kernel),
    passes_iff.2 (by decide +kernel), handed_of (by decide +kernel), passes_iff.2 (by decide +kernel)⟩

/-- The clauses of calibration; the first SOS after hardware reset has no measured period and is only seen. -/
theorem meets_CalibrationCapturesPeriods :
    let s := calibrating 4
    let first : State := { idle with scan := { idle.scan with
      state := .calibrating, calibration := some (Calibration.start Geometry.reset) } }
    s.resetPin = false ∧ s.scan.state = .calibrating ∧ s.scan.sosSeen = true ∧
    (s.scan.calibration.map Calibration.revolution = some 2 ∧ s.scan.geometry.revolutions = 2) ∧
    ¬ (s.scan.facetCount < s.scan.geometry.facets) ∧
    ((calibrating 3).scan.facetCount < (calibrating 3).scan.geometry.facets ∧ (calibrating 3).scan.facetCount < 255) ∧
    (Calibration.start s.scan.geometry).revolution = 0 ∧ (Calibration.start s.scan.geometry).sosSeen = false ∧
    first.scan.sosSeen = false ∧ first.scan.state = .calibrating ∧
    after (.sosPulse 7) first (fun t => decide (t.scan = { first.scan with
      sosSeen := true, period := none
      calibration := some { Calibration.start Geometry.reset with sosSeen := true } })) = true := by
  decide +kernel

/-- At the facet `count` of a locked scan with `misses` misses in a row. -/
def atFacet (count misses : Nat) : State :=
  { loaded with scan := { loaded.scan with facetCount := count, misses := misses } }

/-- The clauses of lock supervision: a good period, a facet too many, a miss below the limit and at it, an
INDEX at the right count and at a wrong one, a scan that is not locked. -/
theorem meets_LockIsSupervised :
    SyncPassed 50000 50000 (atFacet 7 0) ∧ SyncPassed 60000 50000 (atFacet 7 1) ∧ (atFacet 7 0).seq.phase = .between ∧
    ((atFacet 8 0).scan.state = .locked ∧ (atFacet 8 0).scan.sosSeen = true ∧
      (atFacet 8 0).scan.geometry.facets ≤ (atFacet 8 0).scan.facetCount) ∧
    ((atFacet 7 1).scan.captured = some (List.replicate 8 50000) ∧ (List.replicate 8 50000)[7]? = some 50000 ∧
      50000 * (atFacet 7 1).scan.geometry.tolerance <
        (max (50039 / 10 * 10) 50000 - min (50039 / 10 * 10) 50000) * 1000000 ∧
      ¬ 50000 * (atFacet 7 1).scan.geometry.tolerance <
        (max (50029 / 10 * 10) 50000 - min (50029 / 10 * 10) 50000) * 1000000) ∧
    (atFacet 7 1).scan.misses + 1 ≠ (atFacet 7 1).scan.geometry.missLimit ∧
    (atFacet 7 2).scan.misses + 1 = (atFacet 7 2).scan.geometry.missLimit ∧
    (atFacet 8 0).scan.facetCount = (atFacet 8 0).scan.geometry.facets ∧
    (atFacet 7 0).scan.facetCount ≠ (atFacet 7 0).scan.geometry.facets ∧ idle.scan.state = .unlocked := by
  refine ⟨⟨rfl, rfl, rfl, by decide, ⟨List.replicate 8 50000, rfl, by decide⟩, .inl (by decide)⟩,
    ⟨rfl, rfl, rfl, by decide, ⟨List.replicate 8 50000, rfl, by decide⟩, .inr (by decide)⟩, ?_⟩
  decide +kernel

/-! ### Lasers and monitor -/

theorem meets_LaserRequestsMoveChannels :
    let s := { loaded with lasers := ⟨.off, .warming, .fault⟩ }
    let fault (mask : Byte) (ch : Channel) : Bool := named mask ch && decide (s.lasers.get ch = .fault)
    let checks (mask : Byte) : List Check :=
      [ (!maskOk mask, .badValue, 1),
        (decide (s.pins.levels.interlock = false), .interlock, 0),
        (s.monitor.targets.isNone, .notReady, 0xFFFF),
        (fault mask .red, .notReady, 0), (fault mask .green, .notReady, 1), (fault mask .blue, .notReady, 2) ]
    (handed (.enableLasers 1 3) s).Handed (.enableLasers 1 3) (sent (.enableLasers 1 3)) ∧ passes (checks 3) ∧
    firstFailing (checks 7) = some (.refuse .notReady 2) ∧ firstFailing (checks 8) = some (.refuse .badValue 1) ∧
    (handed (.disableLasers 1 7) s).Handed (.disableLasers 1 7) (sent (.disableLasers 1 7)) ∧ passes
      [(decide (s.run.state ≠ .stopped), .busy, 0), (!maskOk 7, .badValue, 1)] :=
  ⟨handed_of (by decide +kernel), passes_iff.2 (by decide +kernel), by decide +kernel, by decide +kernel,
    handed_of (by decide +kernel), passes_iff.2 (by decide +kernel)⟩

/-- The clauses of the laser inputs. The opening of the interlock raises LINES in a STOPPED run and no HALT; a halt
marks a HALT notice that is being sent. -/
theorem meets_LaserInputsGateDrive :
    loaded.resetPin = false ∧ false ≠ loaded.pins.levels.interlock ∧ true ≠ State.reset.pins.levels.interlock ∧
    (⟨true, false, true⟩ : Rgb Bool) ≠ loaded.pins.levels.laserReady ∧
    (loaded.pins.levels.laserReady.get .green = true ∧ loaded.lasers.get .green = .ready) ∧
    after (.interlockChange false) loaded (fun t => decide (t.lasers = Rgb.same .off ∧
      t.link.notices = ⟨false, false, false, true⟩)) = true ∧
    after (.laserReadyChange ⟨true, false, true⟩) (exposing flashWork 1 0) (fun t =>
      decide (t.link.notices = ⟨true, false, false, true⟩)) = true ∧
    (let sent (again : Bool) : Transmission := ⟨.flag .halt again, ⟨0x82, 0, [1]⟩⟩
     let s := exposing flashWork 1 0
     after (.interlockChange false) { s with link := { s.link with transmitter := some (sent false) } } (fun t =>
       decide (t.link.transmitter = some (sent true)))) = true := by decide +kernel

theorem meets_MonitorClockIsWatched :
    loaded.resetPin = false ∧ (loaded.monitor.channels.get .blue).lost = false ∧ loaded.seq.phase = .between ∧
    (preparing flashWork 1).seq.phase = .preparing ∧ (exposing flashWork 1 1).seq.phase = .exposing := by decide +kernel

def bounds : PowerItems := ⟨⟨⟨65535, 1024, 2048⟩, ⟨1, 1, 2⟩, ⟨1, 1, 2⟩⟩, 16, 256⟩

theorem meets_PowerTargetsAndReadMonitor :
    let p := bounds
    let s := loaded
    let badSoft (t : TargetItems) : Bool := decide (¬ (1 ≤ t.soft.toNat ∧ t.soft.toNat ≤ 1024))
    let badHard (t : TargetItems) : Bool := decide (¬ (t.soft.toNat < t.hard.toNat ∧ t.hard.toNat ≤ 2048))
    (handed (.setPowerTargets 1 p) s).Handed (.setPowerTargets 1 p) (sent (.setPowerTargets 1 p)) ∧ passes
      [ (decide (s.run.state ≠ .stopped), .busy, 0),
          (decide (p.channels.red.target.toNat = 0), .badValue, 1),
          (decide (p.channels.green.target.toNat = 0), .badValue, 4),
          (decide (p.channels.blue.target.toNat = 0), .badValue, 7),
          (badSoft p.channels.red, .badValue, 2),
          (badSoft p.channels.green, .badValue, 5),
          (badSoft p.channels.blue, .badValue, 8),
          (badHard p.channels.red, .badValue, 3),
          (badHard p.channels.green, .badValue, 6),
          (badHard p.channels.blue, .badValue, 9),
          (decide (16 < p.hardCount.toNat), .badValue, 10),
          (decide (¬ (16 ≤ p.osr.toNat ∧ p.osr.toNat ≤ 256)), .badValue, 11) ] ∧
    (handed (.readMonitor 1) s).Handed (.readMonitor 1) (sent (.readMonitor 1)) :=
  ⟨handed_of (by decide +kernel), passes_iff.2 (by decide +kernel), handed_of (by decide +kernel)⟩

/-- The clauses of a power reading: completed with 30 ones of 64 samples, or not completed after 63. -/
theorem meets_PowerReadingIsJudged :
    let s := exposing flashWork 1 1
    let t : Target := ⟨40000, 200, 400⟩
    let p : PowerTargets := ⟨Rgb.same t, 2, 64⟩
    let c := s.monitor.channels.red
    let once := { c with breaches := 1 }
    s.resetPin = false ∧ s.monitor.targets = some p ∧ s.seq.phase = .exposing ∧
    (s.drive.map fun l => l.delay * 1000).getD 0 = 100000 ∧ ReadingCompletes 64 100000 (clocked 64 30) 30 ∧
    filterCount 64 100000 (clocked 64 30) = some 30 ∧ filterCount 64 100000 (clocked 63 30) = none ∧
    ¬ breached 2 c (readingTaken 64 t (some 30) c) ∧ breached 2 once (readingTaken 64 t (some 30) once) ∧
    loaded.resetPin = false ∧ loaded.seq.phase ≠ .exposing := by
  have h : ReadingCompletes 64 100000 (clocked 64 30) 30 :=
    ⟨samplesOf (clocked 64 30), [], by decide +kernel, by decide +kernel, by decide +kernel, by decide +kernel⟩
  simp only [breached, h]
  decide +kernel

/-- The clauses of the trim update: a mean to be applied, with the clamp acting from trim 5100 and not acting from 4096,
and no targets; and the entry to PREPARING that makes the update. -/
theorem meets_TrimUpdateFollowsMean :
    let s (trim : Nat) : State := { loaded with monitor := { loaded.monitor with
      channels := Rgb.same { MonitorChannel.reset with valid := true, mean := 36000, trim := trim } } }
    let c := (s 5100).monitor.channels.get .red
    (s 5100).monitor.targets.isSome ∧ c.valid = true ∧ c.applied = false ∧ idle.monitor.targets = none ∧
    (s 5100).trimUpdate.monitor.channels.red.flags ≠ c.flags ∧
    (s 4096).trimUpdate.monitor.channels.map MonitorChannel.flags = (s 4096).monitor.channels.map MonitorChannel.flags ∧
    answers (.startRun 1 1 10) { s 5100 with jobs := ⟨[newJob 7 flashWork 1], []⟩ } (.accept []) (fun t =>
      decide (t.seq.phase = .preparing ∧ t.link.notices.monitor = true ∧
        t.monitor.channels.map MonitorChannel.trim = Rgb.same 5120 ∧
        t.monitor.channels.map MonitorChannel.applied = Rgb.same true)) = true := by decide +kernel

/-! ### Spoil Log and link -/

theorem meets_TakeSpoilEntriesRemovesOldest :
    let i := Instr.takeSpoilEntries 1 8
    let s : State := handed i { loaded with
      log := ⟨[entry 5, entry 6], 2⟩
      link := { loaded.link with transmitter := some ⟨.spoil false, noticeMessage 2 (entry 5).record⟩ } }
    s.Handed i (sent i) ∧ passes [(decide (¬ (1 ≤ (8 : Byte).toNat ∧ (8 : Byte).toNat ≤ 8)), .badValue, 1)] ∧
    firstFailing [(decide (¬ (1 ≤ (9 : Byte).toNat ∧ (9 : Byte).toNat ≤ 8)), .badValue, 1)] = some (.refuse .badValue 1) ∧
    s.link.transmitter = some ⟨.spoil false, noticeMessage 2 (entry 5).record⟩ :=
  ⟨handed_of (by decide +kernel), passes_iff.2 (by decide +kernel), by decide +kernel, rfl⟩

theorem meets_GetStatusReportsAndClears :
    (handed (.getStatus 1) loaded).Handed (.getStatus 1) (sent (.getStatus 1)) ∧ loaded.monitor.targets.isSome ∧
    (handed (.getStatus 1) idle).Handed (.getStatus 1) (sent (.getStatus 1)) ∧ idle.monitor.targets = none :=
  ⟨handed_of (by decide +kernel), by decide +kernel, handed_of (by decide +kernel), by decide +kernel⟩

/-- A SCAN notice is being sent. -/
def noticing : State :=
  { loaded with link := { loaded.link with
      notices := ⟨false, true, false, false⟩, transmitter := some ⟨.flag .scan false, ⟨0x82, 0, [4]⟩⟩ } }

theorem meets_NoticesAreMaskedAndRaised :
    (handed (.setNotices 1 7) loaded).Handed (.setNotices 1 7) (sent (.setNotices 1 7)) ∧ (7 : Byte).toNat ≤ 7 ∧
    (handed (.setNotices 1 8) loaded).Handed (.setNotices 1 8) (sent (.setNotices 1 8)) ∧ 7 < (8 : Byte).toNat ∧
    loaded.link.mask.scan = true ∧ ({ loaded.link with mask := ⟨false, true, true⟩ } : Link).mask.scan = false ∧
    noticing.link.transmitter = some ⟨.flag .scan false, ⟨0x82, 0, [4]⟩⟩ ∧ loaded.link.transmitter = none :=
  ⟨handed_of (by decide +kernel), by decide, handed_of (by decide +kernel), by decide, by decide +kernel, rfl, rfl, rfl⟩

/-- A class raised while its notice is sent is pending at its end, unless Set Notices disables it meanwhile. -/
theorem test_raise_marks_notice :
    (noticing.raise .scan).link.transmitter = some ⟨.flag .scan true, ⟨0x82, 0, [4]⟩⟩ ∧
    (noticing.raise .lines).link.transmitter = noticing.link.transmitter ∧
    answers (.setNotices 1 6) (noticing.raise .scan) (.accept [6]) (fun t =>
      decide (t.link.transmitter = some ⟨.flag .scan false, ⟨0x82, 0, [4]⟩⟩ ∧ t.link.notices.scan = false)) = true := by
  decide +kernel

/-- The clauses of a whole message. The start byte C5h stands on a pair as the bits 1, 0, 1, 0, 0, 0, 1, 1. -/
theorem meets_WholeMessageIsHeldOrTaken :
    let m := sent (.queryJob 22 9)
    let busy := handed (.getStatus 1) idle
    let second : State := { busy with link := { busy.link with buffer := [m] } }
    second.link.current ≠ none ∧ second.link.receiver = .hunting ∧ second.link.buffer.length = 1 ∧
    idle.resetPin = false ∧ idle.link.receiver = .hunting ∧ m.payload.length ≤ 8200 ∧ idle.link.buffer.length < 2 ∧
    idle.link.current = none ∧ idle.link.buffer = [] ∧
    busy.resetPin = false ∧ busy.link.receiver = .hunting ∧ busy.link.buffer.length < 2 ∧ busy.link.current ≠ none ∧
    lineBits [0xC5] = [true, false, true, false, false, false, true, true] ∧
    lineBytes (lineBits m.frame) = m.frame := by
  decide +kernel

theorem meets_FaultyReceptionsAreDiscarded :
    let m := sent (.queryJob 22 9)
    let full : State := { idle with link := { idle.link with buffer := [m, m] } }
    idle.resetPin = false ∧ idle.link.receiver = .hunting ∧ (0xC5 : Byte) ∉ [0x00, 0xC4, 0xC6] ∧
    full.link.receiver = .hunting ∧ full.link.buffer.length = 2 ∧ idle.link.buffer.length < 2 ∧
    8200 < ((0x20 : Byte) ++ (0x09 : Byte)).toNat ∧ m.payload.length ≤ 8200 ∧ (0 : Half) ≠ crc16 m.covered ∧
    ({ idle with link := { idle.link with receiver := .atType } } : State).link.receiver ≠ .hunting := by decide +kernel

theorem meets_LinkExaminesTypeAndLength :
    (sent (.queueJob 1 exposeItems)).payload.length = 19 ∧ (sent (.queueJob 1 exposeItems)).type = 0x01 ∧
    (sent (.curveData 1 1 2 1 1 [⟨8, 0⟩])).payload = 1 :: 2 :: 1 :: 0 :: 1 :: 0 :: [8, 0, 0] ∧
    (sent (.curveData 1 1 2 1 1 [⟨8, 0⟩])).type = 0x11 ∧
    (⟨0x0B, 1, [1, 2, 3, 4, 5]⟩ : Message).payload.length < 6 ∧ (⟨0x29, 1, []⟩ : Message).payload = [] ∧
    (sent (.loadFacetCorrections 1 1 [3])).payload = 1 :: [3, 0] := by decide +kernel

theorem meets_RequestCommandReachesBlock :
    let i := Instr.queryJob 22 9
    let busy := handed (.getStatus 1) idle
    let full : State := { busy with link := { busy.link with buffer := [sent i, sent i] } }
    i.wellFormed = true ∧ i.encode = some (sent i) ∧ idle.resetPin = false ∧ idle.link.receiver = .hunting ∧
    idle.link.current = none ∧ idle.link.buffer = [] ∧
    busy.link.current = some ⟨sent (.getStatus 1), .handed⟩ ∧ busy.isHanded i = false ∧ busy.link.buffer.length < 2 ∧
    full.link.current = some ⟨sent (.getStatus 1), .handed⟩ ∧ full.isHanded i = false ∧ 2 ≤ full.link.buffer.length := by
  decide +kernel

theorem meets_RequestsAreReadBack :
    (Instr.lineData 1 1 1 2 [0xFFFF, 0]).wellFormed = true ∧
    (Instr.lineData 1 1 1 2 [0xFFFF, 0]).encode = some (sent (.lineData 1 1 1 2 [0xFFFF, 0])) := by decide +kernel

/-- The states in which the transmitter chooses a reply, each class of notice, or nothing. -/
theorem meets_TransmitterChoosesInOrder :
    let q := sent (.queryJob 22 9)
    let pend (r : Reply) : State := { idle with link := { idle.link with current := some ⟨q, .replyPending r⟩ } }
    let raised (n : NoticeFlags) : State := { idle with link := { idle.link with notices := n } }
    (pend (.accept [1])).link.current = some ⟨q, .replyPending (.accept [1])⟩ ∧ (pend (.accept [1])).resetPin = false ∧
    (pend (.accept [1])).link.transmitter = none ∧
    (pend (.refuse .busy 0)).link.current = some ⟨q, .replyPending (.refuse .busy 0)⟩ ∧
    (sending (.queryJob 22 9) (.accept []) idle).link.transmitter ≠ none ∧
    idle.link.current = none ∧ idle.link.transmitter = none ∧
    (raised ⟨true, true, false, false⟩).link.notices.halt = true ∧
    ({ idle with log := ⟨[entry 5, entry 6, entry 7], 2⟩ } : State).log.entries = [entry 5] ++ entry 6 :: [entry 7] ∧
    ({ idle with log := ⟨[entry 5, entry 6, entry 7], 2⟩ } : State).log.unsent = [entry 7].length + 1 ∧
    twoJobs.jobs.results = { newJob 9 .blank 1 with outcome := some .complete } :: [] ∧ twoJobs.log.unsent = 0 ∧
    (raised ⟨false, true, true, true⟩).link.notices.scan = true ∧
    (raised ⟨false, false, true, true⟩).link.notices = ⟨false, false, true, true⟩ ∧
    (raised ⟨false, false, false, true⟩).link.notices = ⟨false, false, false, true⟩ ∧ idle.jobs.results = [] ∧
    idle.transmitPair = [] ∧ noticing.link.transmitter = some ⟨.flag .scan false, ⟨0x82, 0, [4]⟩⟩ ∧
    noticing.transmitPair.take 16 =
      [true, false, true, false, false, false, true, true, false, true, false, false, false, false, false, true] := by
  decide +kernel

theorem meets_EndOfMessageTakesEffect :
    let s := sending (.queryJob 22 9) (.accept []) idle
    let notice (x : Sending) : State := { idle with link := { idle.link with transmitter := some ⟨x, ⟨0x82, 0, []⟩⟩ } }
    s.resetPin = false ∧ s.link.transmitter = some ⟨.reply (.accept []), Reply.message (sent (.queryJob 22 9)) (.accept [])⟩ ∧
    s.link.current = some ⟨sent (.queryJob 22 9), .replySending⟩ ∧ (sent (.queryJob 22 9)).type ≠ 0x3E ∧
    s.link.buffer = [] ∧
    (notice (.flag .scan true)).link.transmitter = some ⟨.flag .scan true, ⟨0x82, 0, []⟩⟩ ∧
    (notice (.spoil true)).link.transmitter = some ⟨.spoil true, ⟨0x82, 0, []⟩⟩ ∧
    (notice .jobResult).link.transmitter = some ⟨.jobResult, ⟨0x82, 0, []⟩⟩ ∧ idle.link.transmitter = none := by
  decide +kernel

theorem meets_SoftResetTakesHoldAtReplyEnd :
    let i := Instr.softReset 1
    let s := sending i (.accept []) (exposing flashWork 1 1)
    let m : State := sending i (.accept []) (moving .advancing 1 none)
    (handed i loaded).Handed i (sent i) ∧ s.resetPin = false ∧
    s.link.transmitter = some ⟨.reply (.accept []), Reply.message (sent i) (.accept [])⟩ ∧
    s.link.current = some ⟨sent i, .replySending⟩ ∧ (sent i).type = 0x3E ∧ s.seq.phase = .exposing ∧
    m.transport.state = .advancing ∧ m.seq.phase ≠ .exposing ∧ s.transport.state = .registered :=
  ⟨handed_of (by decide +kernel), by decide +kernel⟩

/-- A line change while the RESET pin is asserted moves the level alone, and with it OPEN or EMPTY. -/
theorem test_filmPresentChange_in_reset :
    let s := State.afterReset true .mbit50 false Lines.none 0 []
    after (.filmPresentChange true) s (fun t => decide (t = { s with
      pins := { s.pins with levels := { s.pins.levels with filmPresent := true } }
      transport := { s.transport with state := .opened } })) = true := by decide +kernel

theorem meets_HardwareResetSetsEveryBlock :
    (State.afterReset true .mbit50 false Lines.none 0 []).resetPin = true ∧ idle.resetPin = false ∧
    Instr.indexPulse ≠ .hardwareReset ∧ (∀ a b, Instr.indexPulse ≠ .resetRelease a b) ∧
    (∀ l, Instr.indexPulse ≠ .filmPresentChange l) ∧ (∀ l, Instr.indexPulse ≠ .laserReadyChange l) := by
  refine ⟨rfl, rfl, by decide, ?_, ?_, ?_⟩ <;> intros <;> exact fun h => nomatch h

/-! ### Invariants: a state that meets each, with a command before it -/

theorem meets_StepKeeps_step : step { idle with pending := [.indexPulse] } = .next idle := by
  show exec .indexPulse { idle with pending := [] } = _
  rfl

theorem meets_StepKeepsDriveSafe :
    DriveSafe { idle with pending := [.indexPulse] } ∧ DriveSafe (exposing flashWork 1 1) ∧
    (exposing flashWork 1 1).output .red 0 ≠ ⟨0, false, true⟩ :=
  ⟨⟨(by intro h; cases h), (by intro h; cases h), (by intro h; cases h), fun h => absurd rfl h, fun h => absurd rfl h⟩,
    ⟨fun _ => rfl, fun _ => rfl, fun _ => rfl, fun _ => .inl rfl, fun _ => rfl⟩, by decide +kernel⟩

theorem meets_StepKeepsTrimsAndPosition :
    TrimsInRange { loaded with pending := [.indexPulse] } ∧ PositionInReel { loaded with pending := [.indexPulse] } := by
  refine ⟨fun ch => by cases ch <;> decide +kernel, ⟨fun r h => ?_, fun r h hm => ?_⟩⟩
  · obtain rfl := Option.some.inj h; decide +kernel
  · rcases hm with hm | ⟨hm, -⟩ <;> cases hm

theorem meets_StepKeepsStoresBounded :
    JobsBounded { twoJobs with pending := [.indexPulse] } ∧
    LogBounded { loaded with pending := [.indexPulse], log := ⟨[entry 5, entry 6], 1⟩ } := by
  refine ⟨⟨by decide +kernel, by decide +kernel⟩, ⟨by decide +kernel, fun h => absurd rfl h, by decide +kernel, fun h => absurd rfl h⟩⟩

theorem meets_StepKeepsUsesCounted : UsesCounted (handed (.getStatus 1) twoJobs) := usesCounted_twoJobs _

theorem meets_StepKeepsPlanesInStore :
    PlanesDisjoint { loaded with pending := [.lineDataWriteComplete] } ∧
    FillsBounded { loaded with pending := [.lineDataWriteComplete] } := by
  refine ⟨⟨?_, by decide +kernel, by decide +kernel, by decide +kernel⟩, ⟨⟨?_, ?_, ?_, ?_, ?_⟩, by decide +kernel, ?_, by decide +kernel⟩⟩
  · simp [loaded, Plane.disjoint]
  · rintro w (h | h) <;> cases h
  · intro h; cases h
  · rintro h; cases h
  · intro w h; cases h
  · intro r m h; cases h
  · rintro w (h | h) <;> cases h

theorem meets_StepKeepsBuffersInOrder :
    StoreCanonical { reading with pending := [.prefetchReadComplete] } ∧
    QueueInOrder { reading with pending := [.prefetchReadComplete] } ∧
    PlacesBounded { reading with pending := [.prefetchReadComplete] } := by
  refine ⟨show Memory.wf reading.store by decide +kernel, ⟨by decide +kernel, by decide +kernel, by decide +kernel, fun a h => ?_⟩,
    show reading.link.places ≤ 2 by decide +kernel⟩
  obtain rfl := Option.some.inj h
  rfl

end Sys2Proof.Machine.Tests
end

section
/-! The requests of the Plane Tables that define, undefine or rewind a descriptor: the checks that refuse
them in order, and the descriptor that each changes. -/

namespace Sys2Proof.Machine

section Requests

variable {s : State} {i : Instr} {m : Message} {sel : Half} {x : Selector}

/-- R24, R25: a request of the Plane Tables whose effect is a change of the plane tables is refused by its
first failing check, of the selector or of its own, and where every check passes nothing else changes. -/
theorem State.Handed.planes_changed (h : s.Handed i m) {block : Selector → State → State}
    {checks : List Check} {change : Table Plane → Table Plane}
    (hexec : exec i s = carryOut i (withPlane sel block) s)
    (hblock : ∀ x, x.wire = sel.toNat →
      block x s = s.examine checks fun u => State.accept [] { u with planes := change u.planes }) :
    FirstRefusal i m s (selectorChecks sel s ++ checks) ∧
    (passes (selectorChecks sel s ++ checks) → Accepted i m s { s with planes := change s.planes } []) := by
  have hexamine : exec i s = .next (s.examine (selectorChecks sel s ++ checks)
      fun u => State.accept [] { u with planes := change u.planes }) := by
    rw [hexec, carryOut_handed h, withPlane_examine fun x hw _ => hblock x hw]
  obtain ⟨hrefuse, heffect⟩ := h.examined hexamine
  have hanswer := h.accept (t := { s with planes := change s.planes }) rfl []
  exact ⟨hrefuse, fun hp => (heffect hp).trans (congrArg _ hanswer)⟩

/-! ## How the commands reach their blocks -/

theorem exec_definePlane (rt : Byte) (sel base limit width : Half) (s : State) :
    exec (.definePlane rt sel base limit width) s =
      carryOut (.definePlane rt sel base limit width) (definePlaneBlock sel base limit width) s := by
  rfl

theorem exec_undefinePlane (rt : Byte) (sel : Half) (s : State) :
    exec (.undefinePlane rt sel) s = carryOut (.undefinePlane rt sel) (undefinePlaneBlock sel) s := by
  rfl

theorem exec_rewindPlane (rt : Byte) (sel : Half) (s : State) :
    exec (.rewindPlane rt sel) s = carryOut (.rewindPlane rt sel) (rewindPlaneBlock sel) s := by
  rfl

/-! ## The blocks' checks as the manual gives them -/

/-- R29: a limit or a width is refused outside its range, and the overlap names the descriptor that shares
a slot by its selector. -/
theorem definePlaneChecks_eq (hw : x.wire = sel.toNat) (base limit width : Half) (s : State) :
    definePlaneChecks x base limit width s =
      let old := Table.get s.planes sel.toNat
      let shared := s.planes.find? fun e =>
        decide (base.toNat < e.2.base + e.2.limit ∧ e.2.base < base.toNat + limit.toNat)
      [ (old.isSome, .alreadyDefined, (old.map Plane.base).getD 0),
        (decide (¬ (1 ≤ limit.toNat ∧ limit.toNat ≤ 4096)), .badValue, 2),
        (decide (¬ (256 ≤ width.toNat ∧ width.toNat ≤ 4096 ∧ width.toNat % 256 = 0)), .badValue, 3),
        (decide (65536 < base.toNat + limit.toNat), .bounds, base.toNat + limit.toNat - 65536),
        (shared.isSome, .overlap, (shared.map Prod.fst).getD 0) ] := by
  have hlimit : decide (limit.toNat < 1 ∨ 4096 < limit.toNat) =
      decide (¬ (1 ≤ limit.toNat ∧ limit.toNat ≤ 4096)) := decide_eq_decide.2 (by omega)
  have hwidth : decide (width.toNat < 256 ∨ 4096 < width.toNat ∨ width.toNat % 256 ≠ 0) =
      decide (¬ (256 ≤ width.toNat ∧ width.toNat ≤ 4096 ∧ width.toNat % 256 = 0)) :=
    decide_eq_decide.2 (by omega)
  simp only [definePlaneChecks, overlapping, hw, hlimit, hwidth, Option.isSome_map]
  rfl

/-- R31, R32: the checks of Undefine Plane and Rewind Plane after the selector's, by the wire value. -/
theorem freePlaneChecks_eq (hw : x.wire = sel.toNat) (s : State) :
    freePlaneChecks x s =
      [ ((Table.get s.planes sel.toNat).isNone, .notDefined, sel.toNat),
        ((Table.get s.planes sel.toNat).any fun p => decide (0 < p.use), .inUse,
          ((Table.get s.planes sel.toNat).map Plane.use).getD 0) ] := by
  rw [freePlaneChecks, hw]

/-! ## What Undefine Plane and Rewind Plane leave -/

/-- R31: Undefine Plane, examined by the checks it shares, erases the descriptor from the tables. -/
theorem undefinePlane_handed {rt : Byte} (h : s.Handed (.undefinePlane rt sel) m) :
    FirstRefusal (.undefinePlane rt sel) m s (unusedPlaneChecks sel s) ∧
    (passes (unusedPlaneChecks sel s) →
      Accepted (.undefinePlane rt sel) m s { s with planes := Table.erase s.planes sel.toNat } []) := by
  refine h.planes_changed (change := fun t => Table.erase t sel.toNat) (exec_undefinePlane ..) fun x hw => ?_
  rw [freePlaneChecks_eq hw, hw]

/-- R32: Rewind Plane, examined by the same checks, changes the descriptor's fill mark to 0. -/
theorem rewindPlane_handed {rt : Byte} (h : s.Handed (.rewindPlane rt sel) m) :
    FirstRefusal (.rewindPlane rt sel) m s (unusedPlaneChecks sel s) ∧
    (passes (unusedPlaneChecks sel s) → Accepted (.rewindPlane rt sel) m s
      { s with planes := Table.modify s.planes sel.toNat fun p => { p with fill := 0 } } []) := by
  refine h.planes_changed (change := fun t => Table.modify t sel.toNat fun p => { p with fill := 0 })
    (exec_rewindPlane ..) fun x hw => ?_
  rw [freePlaneChecks_eq hw, hw]

end Requests

/-! ## The obligations -/

/-- Settles O3: the selector's checks stand before those of R29, and the descriptor of R30 is put under the
selector where all pass. -/
theorem definePlaneFillsDescriptor : Obligations.DefinePlaneFillsDescriptor := by
  intro rt sel base limit width m s h
  refine h.planes_changed (change := fun t => Table.put t sel.toNat _) (exec_definePlane ..) fun x hw => ?_
  rw [definePlaneChecks_eq hw, hw]

/-- Settles O4: each request leaves the one table above, and erasing or modifying a number changes what that
number holds and no other. -/
theorem undefineAndRewindPlane : Obligations.UndefineAndRewindPlane := by
  refine ⟨fun rt sel m s h => ?_, fun rt sel m s h => ?_⟩
  · -- Undefine Plane
    obtain ⟨hrefuse, haccept⟩ := undefinePlane_handed h
    refine ⟨hrefuse, fun hp => ⟨_, haccept hp, ?_, fun k hk => ?_⟩⟩
    · rw [Table.get_erase, if_pos rfl]
    · rw [Table.get_erase, if_neg hk.symm]
  · -- Rewind Plane
    obtain ⟨hrefuse, haccept⟩ := rewindPlane_handed h
    refine ⟨hrefuse, fun hp => ⟨_, haccept hp, ?_, fun k hk => ?_⟩⟩
    · rw [Table.get_modify, if_pos rfl]
    · rw [Table.get_modify, if_neg hk.symm]

end Sys2Proof.Machine
end

section
/-! The queries of the Plane Tables and the Curve Memory, and the requests that begin, discard or load a curve
set: the checks that refuse them in order, the report, and the one set that each changes. -/

namespace Sys2Proof

/-- The value set for a channel is the one it holds. -/
@[simp] theorem Rgb.get_set_self {α : Type} (x : Rgb α) (ch : Channel) (v : α) : (x.set ch v).get ch = v := by
  cases ch <;> rfl

end Sys2Proof

namespace Sys2Proof.Machine

section Requests

variable {s t : State} {i : Instr} {m : Message} {items : List Byte} {checks : List Check}

/-! ## Requests whose effect is an acceptance -/

/-- A request that is examined by a table and then accepted is refused by the first failing check, and where
every check passes leaves `t` and the reply's items. -/
theorem State.Handed.examined_accept (h : s.Handed i m) (ht : t.link.current = s.link.current)
    (hexec : exec i s = .next (s.examine checks fun _ => t.accept items)) :
    FirstRefusal i m s checks ∧ (passes checks → Accepted i m s t items) := by
  obtain ⟨hrefuse, heffect⟩ := h.examined hexec
  exact ⟨hrefuse, fun hp => (heffect hp).trans (congrArg _ (h.accept ht items))⟩

/-- R49: the same of a request of the Curve Memory, whose set number is checked before its own checks. -/
theorem State.Handed.set_examined (h : s.Handed i m) (ht : t.link.current = s.link.current) {set : Byte}
    {block : Nat → State → State} (hexec : exec i s = carryOut i (withSet set block) s)
    (hblock : block set.toNat s = s.examine checks fun _ => t.accept items) :
    FirstRefusal i m s ((decide (15 < set.toNat), .badValue, 1) :: checks) ∧
    (passes ((decide (15 < set.toNat), .badValue, 1) :: checks) → Accepted i m s t items) := by
  refine h.examined_accept ht ?_
  rw [hexec, carryOut_handed h, withSet_examine fun _ => hblock]

/-! ## How the commands reach their blocks -/

theorem exec_queryPlane (rt : Byte) (sel : Half) (s : State) :
    exec (.queryPlane rt sel) s = carryOut (.queryPlane rt sel) (queryPlaneBlock sel) s := by
  rfl

theorem exec_queryCurve (rt set : Byte) (s : State) :
    exec (.queryCurve rt set) s = carryOut (.queryCurve rt set) (queryCurveBlock set) s := by
  rfl

theorem exec_beginCurve (rt set : Byte) (s : State) :
    exec (.beginCurve rt set) s = carryOut (.beginCurve rt set) (beginCurveBlock set) s := by
  rfl

theorem exec_discardCurve (rt set : Byte) (s : State) :
    exec (.discardCurve rt set) s = carryOut (.discardCurve rt set) (discardCurveBlock set) s := by
  rfl

theorem exec_curveData (rt set channel : Byte) (first count : Half) (entries : List WireEntry) (s : State) :
    exec (.curveData rt set channel first count entries) s =
      carryOut (.curveData rt set channel first count entries) (curveDataBlock set channel first count entries) s := by
  rfl

/-! ## The reports of the two queries (R33, R55) -/

/-- R33: an UNDEFINED descriptor is reported as ten zeros. -/
theorem planeReport_none : planeReport none = List.replicate 10 0 := by rfl

/-- R33: state, base slot, limit, width, fill mark and use count of a defined descriptor. -/
theorem planeReport_some (p : Plane) :
    planeReport (some p) =
      u8 (if p.fill = p.limit then 2 else 1) ++ u16 p.base ++ u16 p.limit ++ u16 p.width ++ u16 p.fill ++
        u8 p.use := by rfl

/-- R55: an EMPTY set is reported as eight zeros. -/
theorem curveReport_none {n : Nat} (h : Table.get s.curves n = none) : s.curveReport n = List.replicate 8 0 := by
  rw [State.curveReport, State.cursor, State.cursor, State.cursor, State.curveUse, h]; rfl

/-- R55: state, cursors and use count of a set that is LOADING or READY. -/
theorem curveReport_some {n : Nat} {c : CurveSet} (h : Table.get s.curves n = some c) :
    s.curveReport n =
      u8 (if c.ready then 2 else 1) ++ u16 c.entries.red.length ++ u16 c.entries.green.length ++
        u16 c.entries.blue.length ++ u8 c.use := by
  rw [State.curveReport, State.cursor, State.cursor, State.cursor, State.curveUse, h]; rfl

/-- R33: Query Plane is examined by the selector's checks alone, and then reports the descriptor. -/
theorem queryPlane_handed {rt : Byte} {sel : Half} (h : s.Handed (.queryPlane rt sel) m) :
    FirstRefusal (.queryPlane rt sel) m s (selectorChecks sel s) ∧
    (passes (selectorChecks sel s) →
      Accepted (.queryPlane rt sel) m s s (planeReport (Table.get s.planes sel.toNat))) := by
  refine h.examined_accept rfl ?_
  rw [exec_queryPlane, carryOut_handed h, queryPlaneBlock,
    withPlane_examine (checks := []) (effect := fun _ => s.accept (planeReport (Table.get s.planes sel.toNat))),
    List.append_nil]
  intro x hw _
  rw [examine_nil, hw]

/-- R55: Query Curve is examined by the set-number check alone, and then reports the set. -/
theorem queryCurve_handed {rt set : Byte} (h : s.Handed (.queryCurve rt set) m) :
    FirstRefusal (.queryCurve rt set) m s [(decide (15 < set.toNat), .badValue, 1)] ∧
    (passes [(decide (15 < set.toNat), .badValue, 1)] →
      Accepted (.queryCurve rt set) m s s (s.curveReport set.toNat)) :=
  h.set_examined rfl (exec_queryCurve ..) (examine_nil _ s).symm

/-! ## Curve Data (R51, R52) -/

/-- R51: the channel that a wire value of at most 2 names. -/
def wireChannel (b : Byte) : Channel := if b.toNat = 0 then .red else if b.toNat = 1 then .green else .blue

/-- The model reads the channel as `wireChannel` wherever the channel check passes. -/
theorem channelOf_eq_wireChannel {b : Byte} (h : b.toNat ≤ 2) : channelOf b = some (wireChannel b) := by
  obtain ⟨hlarge, _⟩ | ⟨_, hnamed⟩ := channelOf_cases b
  · omega
  · exact hnamed

/-- R51: the checks of Curve Data after the set number's, as the manual gives them, by the wire values. -/
def curveDataRows (set channel : Byte) (first count : Half) (entries : List WireEntry) (s : State) : List Check :=
  let cursor := s.cursor set.toNat (wireChannel channel)
  let bad := firstBadEntry entries
  [ (decide (2 < channel.toNat), .badValue, 2),
    (decide (¬ (1 ≤ count.toNat ∧ count.toNat ≤ 512)), .badValue, 3),
    (!((Table.get s.curves set.toNat).any fun c => !c.ready), .notReady, 0),
    (decide (first.toNat ≠ cursor), .outOfOrder, cursor),
    (decide (4096 < cursor + count.toNat), .bounds, cursor + count.toNat - 4096),
    (bad.isSome, .badValue, 0x8000 + (first.toNat + bad.getD 0)) ]

variable {set channel : Byte} {first count : Half} {entries : List WireEntry}

/-- R51: where the channel is in range the model's table is the manual's. -/
theorem curveDataChecks_eq_rows (h : channel.toNat ≤ 2) :
    curveDataChecks set.toNat channel first count entries s = curveDataRows set channel first count entries s := by
  have hcount : decide (count.toNat < 1 ∨ Config.curveChunk < count.toNat) =
      decide (¬ (1 ≤ count.toNat ∧ count.toNat ≤ 512)) :=
    decide_eq_decide.2 (by simp only [Config.curveChunk]; omega)
  have hchannel : decide (2 < channel.toNat) = false := decide_eq_false (by omega)
  simp only [curveDataChecks, curveDataRows, channelOf_eq_wireChannel h, hcount, hchannel, Option.isNone_some,
    Option.getD_some, Nat.add_assoc]
  rfl

/-- R51: the model's table and the manual's refuse alike: a channel out of range is refused by the first row of
either, before a cursor is looked up. -/
theorem firstFailing_curveDataChecks :
    firstFailing (curveDataChecks set.toNat channel first count entries s) =
      firstFailing (curveDataRows set channel first count entries s) := by
  obtain ⟨hlarge, hnone⟩ | ⟨hsmall, _⟩ := channelOf_cases channel
  · simp [curveDataChecks, curveDataRows, firstFailing, hnone, hlarge]
  · rw [curveDataChecks_eq_rows hsmall]

/-- R51: the checks pass only of a channel in range and a set that is LOADING. -/
theorem curveDataRows_pass (hp : passes (curveDataRows set channel first count entries s)) :
    channel.toNat ≤ 2 ∧ ∃ old, Table.get s.curves set.toNat = some old ∧ old.ready = false := by
  have hchannel := hp (decide (2 < channel.toNat), .badValue, 2) (by simp [curveDataRows])
  have hloading := hp (!((Table.get s.curves set.toNat).any fun c => !c.ready), .notReady, 0)
    (by simp [curveDataRows])
  exact ⟨by simpa using hchannel, by simpa [Option.any_eq_true] using hloading⟩

/-- R52: the state with the entries stored in the set. -/
def State.loadCurve (n : Nat) (ch : Channel) (entries : List WireEntry) (s : State) : State :=
  { s with curves := Table.modify s.curves n (CurveSet.load ch entries) }

/-- R52: the channel's cursor rises by the number of entries stored. -/
theorem loadCurve_cursor {n : Nat} {ch : Channel} {old : CurveSet} (h : Table.get s.curves n = some old) :
    (s.loadCurve n ch entries).cursor n ch = s.cursor n ch + entries.length := by
  simp [State.loadCurve, State.cursor, CurveSet.load, h]

/-- R51, R52: Curve Data is examined by the manual's table, then stores its entries and reports the cursor. -/
theorem curveData_handed {rt : Byte} (h : s.Handed (.curveData rt set channel first count entries) m) :
    let rows := (decide (15 < set.toNat), RefusalCode.badValue, 1) :: curveDataRows set channel first count entries s
    let after := s.loadCurve set.toNat (wireChannel channel) entries
    FirstRefusal (.curveData rt set channel first count entries) m s rows ∧
    (passes rows → Accepted (.curveData rt set channel first count entries) m s after
      (u16 (after.cursor set.toNat (wireChannel channel)))) := by
  refine h.set_examined (t := s.loadCurve set.toNat (wireChannel channel) entries) rfl (exec_curveData ..)
    (examine_congr firstFailing_curveDataChecks fun hp => ?_)
  obtain ⟨hchannel, -⟩ := curveDataRows_pass hp
  simp only [channelOf_eq_wireChannel hchannel, Option.getD_some, State.loadCurve]

end Requests

/-! ## The obligations -/

/-- Settles O5: each query is accepted with its report and the state as it is; the report is read off by whether
the descriptor or the set is there. -/
theorem planeAndCurveQueriesReport : Obligations.PlaneAndCurveQueriesReport := by
  refine ⟨fun rt sel m s h => ?_, fun rt set m s h => ?_⟩
  · -- Query Plane
    obtain ⟨hrefuse, haccept⟩ := queryPlane_handed h
    refine ⟨hrefuse, fun hp d hd => ?_⟩
    have hreport := haccept hp
    rw [hd] at hreport
    cases d with
    | none => rwa [planeReport_none] at hreport
    | some p => rwa [planeReport_some] at hreport
  · -- Query Curve
    obtain ⟨hrefuse, haccept⟩ := queryCurve_handed h
    refine ⟨fun hset => hrefuse [] _ _ [] (by simp [hset]) (by simp [passes]), fun hset => ?_⟩
    have hreport := haccept (by simpa [passes] using hset)
    cases hc : Table.get s.curves set.toNat with
    | none => rwa [curveReport_none hc] at hreport
    | some c => rwa [curveReport_some hc] at hreport

/-- Settles O9: both requests have the table of set number and use count; Begin Curve puts the new set, Discard
Curve erases its number and leaves every other. -/
theorem beginAndDiscardCurve : Obligations.BeginAndDiscardCurve := by
  refine fun rt set m s => ⟨fun h => ?_, fun h => ?_⟩
  · -- Begin Curve
    exact h.set_examined (t := { s with curves := Table.put s.curves set.toNat ⟨false, ⟨[], [], []⟩, 0⟩ })
      rfl (exec_beginCurve ..) rfl
  · -- Discard Curve
    obtain ⟨hrefuse, haccept⟩ := h.set_examined (t := { s with curves := Table.erase s.curves set.toNat })
      rfl (exec_discardCurve ..) rfl
    refine ⟨hrefuse, fun hp => ⟨_, haccept hp, ?_, fun k hk => ?_⟩⟩
    · rw [Table.get_erase, if_pos rfl]
    · rw [Table.get_erase, if_neg hk.symm]

/-- Settles O10: where the checks pass the set is there, its channel's curve is extended by the entries, and the
cursor reported is the old one raised by their number. -/
theorem curveDataLoadsEntries : Obligations.CurveDataLoadsEntries := by
  intro rt set channel first count entries m s h
  obtain ⟨hrefuse, haccept⟩ := curveData_handed h
  refine ⟨hrefuse, fun hp => ?_⟩
  obtain ⟨-, old, hold, -⟩ := curveDataRows_pass fun c hc => hp c (List.mem_cons_of_mem _ hc)
  have hreport := haccept hp
  rw [loadCurve_cursor hold] at hreport
  refine ⟨old, _, hold, hreport, ⟨old.load (wireChannel channel) entries, ?_, rfl, rfl, rfl⟩, fun k hk => ?_⟩
  · rw [Table.get_modify, if_pos rfl, hold, Option.map_some]
  · rw [Table.get_modify, if_neg hk.symm]

end Sys2Proof.Machine
end

section
/-! The requests of the Transport Controller on film that is not registered: Register Gate on OPEN film and Clear
Transport in FAULT, with the checks that refuse them, the transport state each leaves, and its drives. -/

namespace Sys2Proof.Machine

section Transport

variable {s : State} {m : Message} {rt gate : Byte}

/-! ## How the commands reach their blocks -/

theorem exec_registerGate (rt gate : Byte) (s : State) :
    exec (.registerGate rt gate) s = carryOut (.registerGate rt gate) (registerGateBlock gate) s := by
  rfl

theorem exec_clearTransport (rt : Byte) (s : State) :
    exec (.clearTransport rt) s = carryOut (.clearTransport rt) clearTransportBlock s := by
  rfl

/-! ## Register Gate (R128) -/

/-- R128: a wire value names no gate frame state, or FRESH by 0 and USED by 1. -/
theorem gateOf_cases (b : Byte) :
    (1 < b.toNat ∧ gateOf b = none) ∨
    (b.toNat ≤ 1 ∧ gateOf b = some (if b.toNat = 0 then .fresh else .used)) := by
  unfold gateOf
  split <;> simp_all
  omega

/-- R128: the checks of Register Gate as the manual gives them, by the wire value and the line's level. -/
def registerGateRows (gate : Byte) (s : State) : List Check :=
  [ (decide (1 < gate.toNat), .badValue, 1),
    (decide (s.transport.state ≠ .opened), .busy, 0),
    (decide (s.pins.levels.tensionOk = false), .transportFault, 2) ]

/-- R128: the model's table is the manual's. -/
theorem registerGateChecks_eq_rows (gate : Byte) (s : State) :
    registerGateChecks gate s = registerGateRows gate s := by
  have hgate : (gateOf gate).isNone = decide (1 < gate.toNat) := by
    obtain ⟨hlarge, hnone⟩ | ⟨hsmall, hsome⟩ := gateOf_cases gate
    · simp [hnone, hlarge]
    · simp [hsome, hsmall]
  have htension : (!s.pins.levels.tensionOk) = decide (s.pins.levels.tensionOk = false) := by
    cases s.pins.levels.tensionOk <;> rfl
  rw [registerGateChecks, registerGateRows, hgate, htension]

/-- R128: the checks pass only of a gate frame state and of a transport that is OPEN. -/
theorem registerGateRows_pass (hp : passes (registerGateRows gate s)) :
    gate.toNat ≤ 1 ∧ s.transport.state = .opened := by
  have hgate := hp (decide (1 < gate.toNat), .badValue, 1) (by simp [registerGateRows])
  have hopened := hp (decide (s.transport.state ≠ .opened), .busy, 0) (by simp [registerGateRows])
  exact ⟨by simpa using hgate, by simpa using hopened⟩

/-- R128: Register Gate is examined by the manual's table, then starts the settle that ends in the gate frame state
it names. -/
theorem registerGate_handed (h : s.Handed (.registerGate rt gate) m) :
    FirstRefusal (.registerGate rt gate) m s (registerGateRows gate s) ∧
    (passes (registerGateRows gate s) → Accepted (.registerGate rt gate) m s
      { s with transport :=
          s.transport.startSettle (.registerGate (if gate.toNat = 0 then .fresh else .used)) } []) := by
  refine h.examined_accept rfl ?_
  rw [exec_registerGate, carryOut_handed h, registerGateBlock]
  refine congrArg _ (examine_congr (by rw [registerGateChecks_eq_rows]) fun hp => ?_)
  obtain ⟨hlarge, -⟩ | ⟨-, hsome⟩ := gateOf_cases gate
  · exact absurd (registerGateRows_pass hp).1 (by omega)
  · simp only [hsome, Option.getD_some]

/-- R119: the gate drive is asserted and the claw is off while the settle runs. -/
theorem startSettle_drives (t : Transport) (ends : SettleEnds) :
    (t.startSettle ends).state.gateDrive = true ∧ (t.startSettle ends).state.pullDownDrive = false := ⟨rfl, rfl⟩

/-! ## Clear Transport (R133) -/

/-- R133: the check of Clear Transport passes in FAULT alone. -/
theorem TransportState.isFault_iff (x : TransportState) : x.isFault = true ↔ ∃ cause, x = .fault cause := by
  cases x <;> simp [TransportState.isFault]

/-- R133: the transport state that FAULT is left for, by the level of FILM_PRESENT. -/
def clearedState (film : Bool) : TransportState := if film then .opened else .empty

/-- R119: the gate is open and the claw off in either state, as they are in FAULT. -/
theorem clearedState_drives (film : Bool) :
    (clearedState film).gateDrive = false ∧ (clearedState film).pullDownDrive = false := by
  cases film <;> exact ⟨rfl, rfl⟩

/-- R133: Clear Transport is examined by the one check that the transport is in FAULT, then leaves the state the film
gives and reports its code. -/
theorem clearTransport_handed (h : s.Handed (.clearTransport rt) m) :
    FirstRefusal (.clearTransport rt) m s [(!s.transport.state.isFault, .busy, 0)] ∧
    (passes [(!s.transport.state.isFault, .busy, 0)] → Accepted (.clearTransport rt) m s
      { s with transport := { s.transport with state := clearedState s.pins.levels.filmPresent } }
      (u8 (clearedState s.pins.levels.filmPresent).code)) := by
  refine h.examined_accept rfl ?_
  rw [exec_clearTransport, carryOut_handed h]
  rfl

/-- R133: outside FAULT Clear Transport is refused BUSY with detail 0. -/
theorem clearTransport_refused (h : s.Handed (.clearTransport rt) m)
    (hstate : ∀ cause, s.transport.state ≠ .fault cause) : Refused (.clearTransport rt) m s .busy 0 := by
  have hfault : s.transport.state.isFault = false :=
    Bool.eq_false_iff.2 fun hf => (TransportState.isFault_iff _).1 hf |>.elim hstate
  exact (clearTransport_handed h).1 [] _ _ [] (by simp [hfault]) (by simp [passes])

/-- R133: in FAULT Clear Transport is accepted. -/
theorem clearTransport_accepted (h : s.Handed (.clearTransport rt) m) {cause : TransportCause}
    (hstate : s.transport.state = .fault cause) :
    Accepted (.clearTransport rt) m s
      { s with transport := { s.transport with state := clearedState s.pins.levels.filmPresent } }
      (u8 (clearedState s.pins.levels.filmPresent).code) :=
  (clearTransport_handed h).2 (by simp [passes, hstate, TransportState.isFault])

end Transport

/-! ## The obligation -/

/-- Settles O29: Register Gate has the manual's table and starts the settle, which closes the gate; Clear Transport is
accepted in FAULT alone, and the state it leaves is read off by the level of FILM_PRESENT. -/
theorem registerGateAndClearTransport : Obligations.RegisterGateAndClearTransport := by
  refine fun rt m s => ⟨fun gate h => ?_, fun h => ⟨clearTransport_refused h, fun cause hstate => ?_⟩⟩
  · -- Register Gate
    obtain ⟨hrefuse, haccept⟩ := registerGate_handed h
    refine ⟨hrefuse, haccept, fun hp => ⟨?_, _, haccept hp, startSettle_drives ..⟩⟩
    rw [(registerGateRows_pass hp).2]; rfl
  · -- Clear Transport in FAULT
    have haccept := clearTransport_accepted h hstate
    refine ⟨by rw [hstate]; rfl, by rw [hstate]; rfl, ⟨_, haccept, clearedState_drives _⟩, fun hfilm => ?_,
      fun hfilm => ?_⟩
    · rwa [hfilm] at haccept
    · rwa [hfilm] at haccept

end Sys2Proof.Machine
end

section
/-! The requests of the Laser Drive Unit: Enable Lasers and Disable Lasers, with the checks that refuse them in order,
the state in which each leaves every channel, and the three states of the reply. -/

namespace Sys2Proof.Machine

section Lasers

variable {s : State} {m : Message} {rt mask : Byte}

/-! ## How the commands reach their blocks -/

theorem exec_enableLasers (rt mask : Byte) (s : State) :
    exec (.enableLasers rt mask) s = carryOut (.enableLasers rt mask) (enableLasersBlock mask) s := by
  rfl

theorem exec_disableLasers (rt mask : Byte) (s : State) :
    exec (.disableLasers rt mask) s = carryOut (.disableLasers rt mask) (disableLasersBlock mask) s := by
  rfl

/-! ## The channel mask (R153, R155) -/

/-- R153: for each channel, whether the mask names it. -/
def namedChannels (mask : Byte) : Rgb Bool := ⟨named mask .red, named mask .green, named mask .blue⟩

@[simp] theorem namedChannels_get (mask : Byte) (ch : Channel) : (namedChannels mask).get ch = named mask ch := by
  cases ch <;> rfl

/-- R153: a mask is malformed, or decodes to the channels that it names. -/
theorem channelMaskOf_cases (mask : Byte) :
    (maskOk mask = false ∧ channelMaskOf mask = none) ∨
    (maskOk mask = true ∧ channelMaskOf mask = some (namedChannels mask)) := by
  by_cases hbad : mask.toNat = 0 ∨ 8 ≤ mask.toNat
  · exact .inl ⟨decide_eq_false (by omega), if_pos hbad⟩
  · exact .inr ⟨decide_eq_true (by omega), if_neg hbad⟩

/-- R153: the model's mask check is the manual's. -/
theorem channelMaskOf_isNone (mask : Byte) : (channelMaskOf mask).isNone = !maskOk mask := by
  obtain ⟨hbad, hnone⟩ | ⟨hok, hsome⟩ := channelMaskOf_cases mask
  · simp [hbad, hnone]
  · simp [hok, hsome]

/-- R153: a mask whose check passes decodes to the channels that it names. -/
theorem channelMaskOf_getD (hok : maskOk mask = true) (d : Rgb Bool) :
    (channelMaskOf mask).getD d = namedChannels mask := by
  obtain ⟨hbad, -⟩ | ⟨-, hsome⟩ := channelMaskOf_cases mask
  · exact absurd hok (by simp [hbad])
  · rw [hsome, Option.getD_some]

/-- R153, R155: the reply's items are the codes of the three states, in the order red, green, blue. -/
theorem laserBytes_eq (l : Rgb LaserState) : laserBytes l = u8 l.red.code ++ u8 l.green.code ++ u8 l.blue.code := by
  simp [laserBytes, Rgb.toList]

/-! ## A check that names the first channel at fault -/

/-- One row that fails at the first channel with a property, with its number as detail, refuses as the three rows of
the channels do. -/
theorem firstFailing_first {α : Type} (p : α → Bool) (x : Rgb α) (code : RefusalCode) (rest : List Check) :
    firstFailing (((x.first p).isSome, code, ((x.first p).map Channel.code).getD 0) :: rest) =
      firstFailing ((p x.red, code, 0) :: (p x.green, code, 1) :: (p x.blue, code, 2) :: rest) := by
  unfold Rgb.first
  cases p x.red
  · cases p x.green
    · cases p x.blue <;> rfl
    · rfl
  · rfl

/-! ## Enable Lasers (R153) -/

/-- R153: the checks of Enable Lasers as the manual gives them, the channels in FAULT one by one. -/
def enableLasersRows (mask : Byte) (s : State) : List Check :=
  let fault (ch : Channel) : Bool := named mask ch && decide (s.lasers.get ch = .fault)
  [ (!maskOk mask, .badValue, 1),
    (decide (s.pins.levels.interlock = false), .interlock, 0),
    (s.monitor.targets.isNone, .notReady, 0xFFFF),
    (fault .red, .notReady, 0), (fault .green, .notReady, 1), (fault .blue, .notReady, 2) ]

/-- R153: the model's table and the manual's refuse alike: a malformed mask is refused by the first row of either,
before a channel is looked up. -/
theorem firstFailing_enableLasersChecks (mask : Byte) (s : State) :
    firstFailing (enableLasersChecks mask s) = firstFailing (enableLasersRows mask s) := by
  have hinterlock : (!s.pins.levels.interlock) = decide (s.pins.levels.interlock = false) := by
    cases s.pins.levels.interlock <;> rfl
  cases hok : maskOk mask with
  | false => simp [enableLasersChecks, enableLasersRows, firstFailing, channelMaskOf_isNone, hok]
  | true =>
    have hfault := firstFailing_first id
      (Rgb.zip (fun n st => n && decide (st = LaserState.fault)) (namedChannels mask) s.lasers) .notReady []
    simp only [enableLasersChecks, enableLasersRows, channelMaskOf_isNone, channelMaskOf_getD hok, hinterlock,
      firstFailing] at hfault ⊢
    rw [hfault]
    rfl

/-- R153: the checks pass only of a well-formed mask. -/
theorem enableLasersRows_pass (hp : passes (enableLasersRows mask s)) : maskOk mask = true := by
  simpa using hp (!maskOk mask, .badValue, 1) (by simp [enableLasersRows])

/-- R153: the three channel states after Enable Lasers. -/
def enabledLasers (mask : Byte) (s : State) : Rgb LaserState :=
  Rgb.zip (fun f st => f st) (Rgb.zip enabled (namedChannels mask) s.pins.levels.laserReady) s.lasers

/-- R153: only a named channel in OFF moves, by its LASER_READY. -/
theorem enabled_eq (n ready : Bool) (st : LaserState) :
    enabled n ready st = if n = true ∧ st = .off then (if ready then .ready else .warming) else st := by
  cases n
  · simp [enabled]
  · cases st <;> simp [enabled]

theorem enabledLasers_get (mask : Byte) (s : State) (ch : Channel) :
    (enabledLasers mask s).get ch =
      if named mask ch = true ∧ s.lasers.get ch = .off then
        (if s.pins.levels.laserReady.get ch then .ready else .warming)
      else s.lasers.get ch := by
  simp only [enabledLasers, Rgb.get_zip, namedChannels_get, enabled_eq]

/-- R153: Enable Lasers is examined by the manual's table, then moves the channels and reports their states. -/
theorem enableLasers_handed (h : s.Handed (.enableLasers rt mask) m) :
    FirstRefusal (.enableLasers rt mask) m s (enableLasersRows mask s) ∧
    (passes (enableLasersRows mask s) → Accepted (.enableLasers rt mask) m s
      { s with lasers := enabledLasers mask s } (laserBytes (enabledLasers mask s))) := by
  refine h.examined_accept rfl ?_
  rw [exec_enableLasers, carryOut_handed h, enableLasersBlock]
  refine congrArg _ (examine_congr (firstFailing_enableLasersChecks mask s) fun hp => ?_)
  simp only [channelMaskOf_getD (enableLasersRows_pass hp), enabledLasers]

/-! ## Disable Lasers (R155) -/

/-- R155: the checks of Disable Lasers as the manual gives them. -/
def disableLasersRows (mask : Byte) (s : State) : List Check :=
  [(decide (s.run.state ≠ .stopped), .busy, 0), (!maskOk mask, .badValue, 1)]

/-- R155: the checks pass only of a well-formed mask. -/
theorem disableLasersRows_pass (hp : passes (disableLasersRows mask s)) : maskOk mask = true := by
  simpa using hp (!maskOk mask, .badValue, 1) (by simp [disableLasersRows])

/-- R155: the three channel states after Disable Lasers. -/
def disabledLasers (mask : Byte) (s : State) : Rgb LaserState :=
  Rgb.zip (fun n st => if n then LaserState.off else st) (namedChannels mask) s.lasers

theorem disabledLasers_get (mask : Byte) (s : State) (ch : Channel) :
    (disabledLasers mask s).get ch = if named mask ch then .off else s.lasers.get ch := by
  simp only [disabledLasers, Rgb.get_zip, namedChannels_get]

/-- R155: Disable Lasers is examined by the manual's table, then turns the named channels off and reports the
states. -/
theorem disableLasers_handed (h : s.Handed (.disableLasers rt mask) m) :
    FirstRefusal (.disableLasers rt mask) m s (disableLasersRows mask s) ∧
    (passes (disableLasersRows mask s) → Accepted (.disableLasers rt mask) m s
      { s with lasers := disabledLasers mask s } (laserBytes (disabledLasers mask s))) := by
  refine h.examined_accept rfl ?_
  rw [exec_disableLasers, carryOut_handed h, disableLasersBlock, channelMaskOf_isNone]
  refine congrArg _ (examine_congr rfl fun hp => ?_)
  simp only [channelMaskOf_getD (disableLasersRows_pass hp), disabledLasers]

end Lasers

/-! ## The obligation -/

/-- Settles O36: each request has the manual's table and reports the three states it leaves, which are read off
channel by channel. -/
theorem laserRequestsMoveChannels : Obligations.LaserRequestsMoveChannels := by
  refine fun rt mask m s => ⟨fun h => ?_, fun h => ?_⟩
  · -- Enable Lasers
    obtain ⟨hrefuse, haccept⟩ := enableLasers_handed h
    rw [laserBytes_eq] at haccept
    exact ⟨hrefuse, fun hp => ⟨_, haccept hp, enabledLasers_get mask s⟩⟩
  · -- Disable Lasers
    obtain ⟨hrefuse, haccept⟩ := disableLasers_handed h
    rw [laserBytes_eq] at haccept
    exact ⟨hrefuse, fun hp => ⟨_, haccept hp, disabledLasers_get mask s⟩⟩

end Sys2Proof.Machine
end

section
/-! How an invariant is shown of the compound work of the part: what the frame cycle, a fault of the recorder and the
end of a job are made of, so that an invariant is shown of those pieces alone. -/

namespace Sys2Proof.Machine

variable {s t : State}

/-! ## What the compound events leave unchanged -/

/-- A completed read changes sequencer and arbiter only (R41, R88). -/
@[simp] theorem readComplete_frame (s : State) :
    (readComplete s).resetPin = s.resetPin ∧ (readComplete s).link = s.link ∧ (readComplete s).jobs = s.jobs ∧
    (readComplete s).planes = s.planes ∧ (readComplete s).store = s.store ∧ (readComplete s).curves = s.curves ∧
    (readComplete s).run = s.run ∧ (readComplete s).reel = s.reel ∧ (readComplete s).transport = s.transport ∧
    (readComplete s).pins = s.pins ∧ (readComplete s).lasers = s.lasers ∧ (readComplete s).drive = s.drive ∧
    (readComplete s).monitor = s.monitor ∧ (readComplete s).log = s.log ∧
    (readComplete s).freeEpoch = s.freeEpoch ∧ (readComplete s).pending = s.pending := by
  unfold readComplete
  split
  · dsimp only; split <;> simp
  all_goals simp

/-- A completed write changes store, planes, sequencer, arbiter and link only (R38). -/
@[simp] theorem writeComplete_frame (s : State) :
    (writeComplete s).resetPin = s.resetPin ∧ (writeComplete s).jobs = s.jobs ∧
    (writeComplete s).curves = s.curves ∧ (writeComplete s).run = s.run ∧ (writeComplete s).reel = s.reel ∧
    (writeComplete s).transport = s.transport ∧ (writeComplete s).pins = s.pins ∧
    (writeComplete s).lasers = s.lasers ∧ (writeComplete s).drive = s.drive ∧
    (writeComplete s).monitor = s.monitor ∧ (writeComplete s).log = s.log ∧
    (writeComplete s).freeEpoch = s.freeEpoch ∧ (writeComplete s).pending = s.pending := by
  unfold writeComplete
  split <;> simp

/-- Line levels are part of the pins, and their change raises a class (R120). -/
@[simp] theorem setLevels_frame (s : State) (l : Lines) :
    (s.setLevels l).resetPin = s.resetPin ∧ (s.setLevels l).jobs = s.jobs ∧ (s.setLevels l).planes = s.planes ∧
    (s.setLevels l).store = s.store ∧ (s.setLevels l).arbiter = s.arbiter ∧ (s.setLevels l).curves = s.curves ∧
    (s.setLevels l).run = s.run ∧ (s.setLevels l).seq = s.seq ∧ (s.setLevels l).reel = s.reel ∧
    (s.setLevels l).transport = s.transport ∧ (s.setLevels l).pins.levels = l ∧
    (s.setLevels l).lasers = s.lasers ∧ (s.setLevels l).drive = s.drive ∧ (s.setLevels l).monitor = s.monitor ∧
    (s.setLevels l).log = s.log ∧ (s.setLevels l).freeEpoch = s.freeEpoch ∧
    (s.setLevels l).pending = s.pending := by
  unfold State.setLevels
  split
  · simp [*]
  · simp

/-- The return of a monitor clock changes the monitor only (R160). -/
@[simp] theorem clockReturn_frame (s : State) (ch : Channel) :
    (clockReturn ch s).resetPin = s.resetPin ∧ (clockReturn ch s).link = s.link ∧
    (clockReturn ch s).jobs = s.jobs ∧ (clockReturn ch s).planes = s.planes ∧
    (clockReturn ch s).store = s.store ∧ (clockReturn ch s).arbiter = s.arbiter ∧
    (clockReturn ch s).curves = s.curves ∧ (clockReturn ch s).run = s.run ∧ (clockReturn ch s).seq = s.seq ∧
    (clockReturn ch s).reel = s.reel ∧ (clockReturn ch s).transport = s.transport ∧
    (clockReturn ch s).pins = s.pins ∧ (clockReturn ch s).lasers = s.lasers ∧
    (clockReturn ch s).drive = s.drive ∧ (clockReturn ch s).log = s.log ∧
    (clockReturn ch s).freeEpoch = s.freeEpoch ∧ (clockReturn ch s).pending = s.pending := by
  simp [clockReturn]

/-- A write that is claimed changes arbiter and link only (R37). -/
@[simp] theorem claimWrite_frame (s : State) (x : Selector) (line : Nat) (words : List Half) :
    (s.claimWrite x line words).resetPin = s.resetPin ∧ (s.claimWrite x line words).jobs = s.jobs ∧
    (s.claimWrite x line words).planes = s.planes ∧ (s.claimWrite x line words).store = s.store ∧
    (s.claimWrite x line words).curves = s.curves ∧ (s.claimWrite x line words).run = s.run ∧
    (s.claimWrite x line words).seq = s.seq ∧ (s.claimWrite x line words).reel = s.reel ∧
    (s.claimWrite x line words).transport = s.transport ∧ (s.claimWrite x line words).pins = s.pins ∧
    (s.claimWrite x line words).lasers = s.lasers ∧ (s.claimWrite x line words).drive = s.drive ∧
    (s.claimWrite x line words).monitor = s.monitor ∧ (s.claimWrite x line words).log = s.log ∧
    (s.claimWrite x line words).freeEpoch = s.freeEpoch ∧ (s.claimWrite x line words).pending = s.pending := by
  simp [State.claimWrite]

/-- Taking entries changes log and link only (R173). -/
@[simp] theorem takeEntries_frame (s : State) (n : Nat) :
    (s.takeEntries n).resetPin = s.resetPin ∧ (s.takeEntries n).jobs = s.jobs ∧
    (s.takeEntries n).planes = s.planes ∧ (s.takeEntries n).store = s.store ∧
    (s.takeEntries n).arbiter = s.arbiter ∧ (s.takeEntries n).curves = s.curves ∧
    (s.takeEntries n).run = s.run ∧ (s.takeEntries n).seq = s.seq ∧ (s.takeEntries n).reel = s.reel ∧
    (s.takeEntries n).transport = s.transport ∧ (s.takeEntries n).pins = s.pins ∧
    (s.takeEntries n).lasers = s.lasers ∧ (s.takeEntries n).drive = s.drive ∧
    (s.takeEntries n).monitor = s.monitor ∧ (s.takeEntries n).freeEpoch = s.freeEpoch ∧
    (s.takeEntries n).pending = s.pending := by
  simp [State.takeEntries]

/-- An accepted job changes Job Store, use counts and link only (R9). -/
@[simp] theorem acceptJob_frame (s : State) (j : Job) :
    (s.acceptJob j).resetPin = s.resetPin ∧ (s.acceptJob j).store = s.store ∧
    (s.acceptJob j).arbiter = s.arbiter ∧ (s.acceptJob j).run = s.run ∧ (s.acceptJob j).seq = s.seq ∧
    (s.acceptJob j).reel = s.reel ∧ (s.acceptJob j).transport = s.transport ∧ (s.acceptJob j).pins = s.pins ∧
    (s.acceptJob j).scan = s.scan ∧ (s.acceptJob j).lasers = s.lasers ∧ (s.acceptJob j).drive = s.drive ∧
    (s.acceptJob j).monitor = s.monitor ∧ (s.acceptJob j).log = s.log ∧
    (s.acceptJob j).placement = s.placement ∧ (s.acceptJob j).freeEpoch = s.freeEpoch ∧
    (s.acceptJob j).pending = s.pending := by
  simp [State.acceptJob]

/-- The flushing of the job queue changes the Job Store and the use counts only (R19). -/
@[simp] theorem flush_frame (s : State) :
    s.flush.resetPin = s.resetPin ∧ s.flush.link = s.link ∧ s.flush.store = s.store ∧
    s.flush.arbiter = s.arbiter ∧ s.flush.run = s.run ∧ s.flush.seq = s.seq ∧ s.flush.reel = s.reel ∧
    s.flush.transport = s.transport ∧ s.flush.pins = s.pins ∧ s.flush.lasers = s.lasers ∧
    s.flush.drive = s.drive ∧ s.flush.monitor = s.monitor ∧ s.flush.log = s.log ∧
    s.flush.freeEpoch = s.freeEpoch ∧ s.flush.pending = s.pending := by
  rw [State.flush_eq s]
  simp

/-! ## The phase through what changes the sequencer's other items -/

@[simp] theorem prefetch_phase (s : State) : s.prefetch.seq.phase = s.seq.phase := by
  rw [prefetch_only]

@[simp] theorem addRow_phase (s : State) (words : List Half) : (s.addRow words).seq.phase = s.seq.phase := by
  unfold State.addRow
  split
  · rfl
  · split
    · rfl
    · dsimp only; split <;> rfl

@[simp] theorem readComplete_phase (s : State) : (readComplete s).seq.phase = s.seq.phase := by
  unfold readComplete
  split
  · dsimp only; split <;> simp
  all_goals rfl

@[simp] theorem writeComplete_phase (s : State) : (writeComplete s).seq.phase = s.seq.phase := by
  unfold writeComplete
  split <;> simp

@[simp] theorem cutLine_phase (s : State) (elapsed : Nat) : (cutLine elapsed s).seq.phase = s.seq.phase := by
  unfold cutLine
  split <;> rfl

@[simp] theorem layLine_phase (s : State) (line facet : Nat) (reel : Reel) (work : Work) (rows : List Row) :
    (layLine line facet reel work rows s).seq.phase = s.seq.phase := rfl

/-! ## The end of a job (R16) -/

/-- R16: the job that ends leaves the queue and joins the tail of the result list. -/
theorem endJob_jobs (o : JobOutcome) (j : Job) (s : State) :
    (s.endJob o j).jobs = ⟨s.jobs.live.eraseP fun k => decide (k.tag = j.tag),
      s.jobs.results ++ [{ j with outcome := some o }]⟩ := by
  simp only [State.endJob]
  split <;> simp

/-- The first LIVE job that carries its own tag: the one that the end of a job of that tag removes. -/
def State.FirstOfTag (j : Job) (s : State) : Prop :=
  s.jobs.live.find? (fun k => decide (k.tag = j.tag)) = some j

/-- The head job is the first that carries its tag. -/
theorem State.FirstOfTag.of_head {j : Job} {rest : List Job} (h : s.jobs.live = j :: rest) : s.FirstOfTag j := by
  simp [State.FirstOfTag, h]

/-- A job found by a tag is the first that carries its own. -/
theorem State.FirstOfTag.of_find {j : Job} {tag : Nat}
    (h : s.jobs.live.find? (fun k => decide (k.tag = tag)) = some j) : s.FirstOfTag j := by
  have htag : j.tag = tag := by simpa using List.find?_some h
  rw [State.FirstOfTag, htag, h]

/-- A property that the end of a job keeps is kept by the completion of the head job. -/
theorem completeHead_keeps {P : State → Prop} (hend : ∀ (s : State) o j, s.FirstOfTag j → P s → P (s.endJob o j))
    (hp : P s) : P s.completeHead := by
  unfold State.completeHead
  split
  · rename_i j hj
    split
    · obtain ⟨rest, hlive⟩ := List.head?_eq_some_iff.1 hj
      exact hend s _ j (.of_head hlive) hp
    · exact hp
  · exact hp

/-- A property that the end of a job keeps is kept by the flushing of the queue, which leaves no LIVE job. -/
theorem flush_keeps {P : State → Prop} (hend : ∀ (s : State) o j, s.FirstOfTag j → P s → P (s.endJob o j))
    (hp : P s) : P s.flush ∧ s.flush.jobs.live = [] := by
  have flushed : ∀ (l : List Job) (u : State), u.jobs.live = l → P u →
      P (l.foldl (fun (t : State) (j : Job) => t.endJob .flushed j) u) ∧
      (l.foldl (fun (t : State) (j : Job) => t.endJob .flushed j) u).jobs.live = [] := by
    intro l
    induction l with
    | nil => exact fun u hl hu => ⟨hu, hl⟩
    | cons j l ih =>
      refine fun u hl hu => ih _ ?_ (hend u _ j (.of_head hl) hu)
      simp [endJob_jobs, hl]
  exact flushed _ s rfl hp

/-! ## The head job's record (R6) -/

/-- The head job's record is written, and its tag and work kept: what a counted, spoiled or suspect frame does to the
Job Store. -/
def HeadCounted (s t : State) : Prop :=
  ∃ f : Job → Job, (∀ j, (f j).tag = j.tag ∧ (f j).work = j.work) ∧ t.jobs = (s.modifyHead f).jobs

theorem spoil_headCounted (s : State) (c : SpoilCause) (l : Nat) (ch : Option Channel) :
    HeadCounted s (s.spoil c l ch) :=
  ⟨fun j => { j with spoiled := raiseCount j.spoiled }, fun _ => ⟨rfl, rfl⟩, rfl⟩

theorem countBlank_headCounted (s : State) : HeadCounted s s.countBlank :=
  ⟨fun j => Job.atPosition s.transport.position { j with framesDone := j.framesDone + 1 }, fun _ => ⟨rfl, rfl⟩, rfl⟩

theorem countFrame_headCounted (s : State) : HeadCounted s s.countFrame :=
  ⟨fun j => { j with
      framesDone := j.framesDone + 1
      saturated := if s.seq.saturation then j.saturated + 1 else j.saturated }, fun _ => ⟨rfl, rfl⟩, rfl⟩

theorem logSuspect_headCounted (s : State) (ch : Channel) : HeadCounted s (s.logSuspect ch) :=
  ⟨fun j => { j with suspect := raiseCount j.suspect }, fun _ => ⟨rfl, rfl⟩, rfl⟩

theorem beginExposing_headCounted (s : State) : HeadCounted s s.beginExposing :=
  ⟨Job.atPosition s.transport.position, fun _ => ⟨rfl, rfl⟩, rfl⟩

/-- The result list is left as it was. -/
theorem HeadCounted.results (h : HeadCounted s t) : t.jobs.results = s.jobs.results := by
  obtain ⟨f, -, hjobs⟩ := h
  rw [hjobs]; rfl

/-- What the queue says by tag and work alone is left as it was. -/
theorem HeadCounted.map_live (h : HeadCounted s t) {α : Type} {g : Job → α}
    (hg : ∀ j k : Job, j.tag = k.tag → j.work = k.work → g j = g k) : t.jobs.live.map g = s.jobs.live.map g := by
  obtain ⟨f, hf, hjobs⟩ := h
  rw [hjobs]
  simp only [State.modifyHead]
  cases s.jobs.live with
  | nil => rfl
  | cons j rest => simp only [List.map_cons, hg (f j) j (hf j).1 (hf j).2]

/-! ## The frame cycle and the faults of the recorder -/

/-- The pieces that the frame cycle and a fault of the recorder are made of keep `P`; `act` is what `P` says of the run
state outside BETWEEN. -/
structure CycleKeeps (act : RunState → Prop) (P : State → Prop) : Prop where
  running : act .running
  active : ∀ s, P s → s.seq.phase ≠ .between → act s.run.state
  halt : ∀ s r, P s → P (s.halt r)
  spoil : ∀ (s : State) c l ch, s.seq.phase = .exposing → P s → P (s.spoil c l ch)
  layDown : ∀ s, P s → P s.layDown
  enterPreparing : ∀ s, s.resetPin = false → act s.run.state → P s → P s.enterPreparing
  trimUpdate : ∀ s, P s → P s.trimUpdate
  prefetch : ∀ s, P s → P s.prefetch
  startPullDown : ∀ s, s.pullDownAnswer = .taken → P s → P s.startPullDown
  endJob : ∀ (s : State) o j, s.FirstOfTag j → P s → P (s.endJob o j)
  rest : ∀ s : State, s.run.state = .pausing → P s → P s.rest
  countBlank : ∀ s, s.seq.phase = .preparing → P s → P s.countBlank
  countFrame : ∀ s, s.seq.phase = .exposing → P s → P s.countFrame
  takeMeans : ∀ s, P s → P s.takeMeans
  suspectEnd : ∀ s ch, act s.run.state → P s → P (s.suspectEnd ch)

namespace CycleKeeps

variable {act : RunState → Prop} {P : State → Prop}

theorem prepare (K : CycleKeeps act P) (h0 : s.resetPin = false) (ha : act s.run.state) (hp : P s) :
    P s.prepare := by
  have hentered : P s.enterPreparing.trimUpdate.prefetch :=
    K.prefetch _ (K.trimUpdate _ (K.enterPreparing _ h0 ha hp))
  simp only [State.prepare]
  split
  · exact K.halt _ _ hp
  · split
    · exact hentered
    · unfold State.requestPullDown
      split
      · exact K.startPullDown _ ‹_› hentered
      · exact K.halt _ _ hentered
      · exact K.halt _ _ hentered

theorem goOn (K : CycleKeeps act P) (h0 : s.resetPin = false) (ha : act s.run.state) (hp : P s) : P s.goOn := by
  unfold State.goOn
  split
  · exact K.prepare h0 ha hp
  · split
    · exact K.halt _ _ hp
    · split
      · exact K.halt _ _ hp
      · exact K.layDown _ hp

theorem frameEnd (K : CycleKeeps act P) (h0 : s.resetPin = false) (ha : act s.run.state) (hp : P s) :
    P s.frameEnd := by
  have hdone : P s.completeHead := completeHead_keeps K.endJob hp
  simp only [State.frameEnd]
  split
  · exact K.halt _ _ hdone
  · split
    · exact K.rest _ (by simpa) hdone
    · exact K.goOn (by simpa) (by simpa) hdone

theorem passBlank (K : CycleKeeps act P) (h0 : s.resetPin = false) (hp : P s) : P s.passBlank := by
  unfold State.passBlank
  split
  · split
    · rename_i hc
      exact K.frameEnd (by simpa) (by simpa using K.active s hp (by simp [hc.1])) (K.countBlank s hc.1 hp)
    · exact hp
  · exact hp

theorem between (K : CycleKeeps act P) (h0 : s.resetPin = false) (hr : s.run.state = .running) (hp : P s) :
    P s.between :=
  K.passBlank (by simpa) (K.goOn h0 (hr ▸ K.running) hp)

theorem cleanEnd (K : CycleKeeps act P) (h0 : s.resetPin = false) (hx : s.seq.phase = .exposing) (hp : P s) :
    P s.cleanEnd := by
  have ha : act s.run.state := K.active s hp (by simp [hx])
  have hcounted := K.countFrame s hx hp
  unfold State.cleanEnd
  split
  · exact K.suspectEnd _ _ (by simpa) hcounted
  · exact K.passBlank (by simpa) (K.frameEnd (by simpa) (by simpa) (K.takeMeans _ hcounted))

theorem meetFault (K : CycleKeeps act P) (c : SpoilCause) (ch : Option Channel) (hp : P s) : P (s.meetFault c ch) := by
  unfold State.meetFault
  split
  · exact K.spoil s _ _ _ ‹_› hp
  · exact K.halt s _ hp
  · split
    · exact hp
    · exact K.halt s _ hp

theorem softResetRun (K : CycleKeeps act P) (hp : P s) : P s.softResetRun := by
  unfold State.softResetRun
  split
  · exact K.spoil s _ _ _ ‹_› hp
  · exact K.halt s _ hp
  · exact K.halt s _ hp

theorem fault (K : CycleKeeps act P) {c : TransportCause}
    (hp : P (State.endSeries s.transport.series { s with transport := s.transport.enterFault c })) :
    P (s.enterTransportFault c) :=
  K.meetFault _ _ hp

theorem interlockOpens (K : CycleKeeps act P) (hp : P { blankDrive s with lasers := Rgb.same .off }) :
    P (interlockEffect false s) :=
  K.meetFault _ _ hp

theorem laserReady (K : CycleKeeps act P) {old new : Rgb Bool} (hblank : ∀ s, P s → P (blankDrive s))
    (hp : P { s with lasers := Rgb.zip (fun f st => f st) (Rgb.zip nextLaser old new) s.lasers }) :
    P (laserReadyEffect old new s) := by
  simp only [laserReadyEffect]
  split
  · exact K.meetFault _ _ (hblank _ hp)
  · exact hp

theorem clockLost (K : CycleKeeps act P) {ch : Channel}
    (hset : P ((s.setChannel ch { s.monitor.channels.get ch with lost := true, expecting := false }).setMonitorFlags ch
      { MonitorFlags.clear with clockLost := true }))
    (hmark : ∀ s c, s.seq.phase = .exposing → P s → P { s with seq := { s.seq with suspect := c } }) (hp : P s) :
    P (clockLost ch s) := by
  simp only [Machine.clockLost]
  split
  · exact hp
  · unfold State.meetClockLoss
    split
    · exact hmark _ _ ‹_› hset
    · exact K.halt _ _ hset
    · exact hset

end CycleKeeps

/-- R23: Soft Reset empties the Job Store. -/
theorem softReset_jobs (s : State) : s.softReset.jobs = ⟨[], []⟩ := rfl

/-- The end of a message is a change of the link, the cursor of the log moving on, the oldest RESULT slot emptied, or
the effects of Soft Reset. -/
theorem endTransmission_keeps {P : State → Prop} {x : Transmission} (h0 : s.resetPin = false)
    (hlink : ∀ s l, P s → P { s with link := l })
    (hcursor : ∀ s : State, P s → P { s with log := { s.log with unsent := s.log.unsent - 1 } })
    (hresult : ∀ s : State, P s → P { s with jobs := { s.jobs with results := s.jobs.results.tail } })
    (hsoft : ∀ s : State, s.resetPin = false → P s → P s.softReset) (hp : P s) : P (s.endTransmission x) := by
  have hidle := hlink s { s.link with transmitter := none } hp
  simp only [State.endTransmission]
  split
  · -- a reply
    simp only [State.endReply]
    have hdone := hlink _ { s.link with transmitter := none, current := none } hp
    split
    · exact hlink _ _ (hsoft _ h0 hdone)
    · exact hlink _ _ hdone
  · -- a notice of a flag class
    exact hlink s { s.link with transmitter := none, notices := s.link.notices.set _ _ } hp
  · -- a SPOIL notice
    split
    · exact hidle
    · exact hcursor _ hidle
  · -- a JOB_RESULT notice
    exact hresult _ hidle

end Sys2Proof.Machine
end

section
/-! The Job Store within its 32 slots with unique tags, and the Spoil Log within its capacity: what each piece of work
does to the stores. -/

namespace Sys2Proof.Machine

section Stores

variable {s t : State}

/-! ## The Job Store (R1, R8) -/

/-- R1, R8: what the bounds say of the two lists of the Job Store. -/
def JobStore.Bounded (j : JobStore) : Prop :=
  j.live.length + j.results.length ≤ 32 ∧ ((j.live ++ j.results).map Job.tag).Nodup

theorem jobsBounded_iff (s : State) : JobsBounded s ↔ s.jobs.Bounded :=
  ⟨fun h => ⟨h.slots, h.tags⟩, fun h => ⟨h.1, h.2⟩⟩

/-- The bounds rest on the Job Store alone. -/
theorem JobsBounded.congr (hs : JobsBounded s) (h : t.jobs = s.jobs) : JobsBounded t := by
  rwa [jobsBounded_iff, h, ← jobsBounded_iff]

/-- A change of the head job's record keeps the number of jobs and their tags. -/
theorem JobsBounded.headCounted (hs : JobsBounded s) (h : HeadCounted s t) : JobsBounded t := by
  have htags : t.jobs.live.map Job.tag = s.jobs.live.map Job.tag := h.map_live fun _ _ htag _ => htag
  have hlen : t.jobs.live.length = s.jobs.live.length := by simpa using congrArg List.length htags
  refine ⟨by rw [hlen, h.results]; exact hs.slots, ?_⟩
  rw [List.map_append, htags, h.results, ← List.map_append]
  exact hs.tags

/-- Removing the first job of a tag from the queue and putting it at the tail of the results rearranges the store. -/
theorem endJob_perm {o : JobOutcome} {j : Job} (h : s.FirstOfTag j) :
    (((s.endJob o j).jobs.live ++ (s.endJob o j).jobs.results).map Job.tag).Perm
      ((s.jobs.live ++ s.jobs.results).map Job.tag) := by
  obtain ⟨-, before, after, hlive, hbefore⟩ := List.find?_eq_some_iff_append.1 h
  have herase : s.jobs.live.eraseP (fun k => decide (k.tag = j.tag)) = before ++ after := by
    rw [hlive, List.eraseP_append_right _ fun k hk => by simpa using hbefore k hk]
    simp
  rw [endJob_jobs, herase, hlive]
  simp only [List.map_append, List.map_cons, List.map_nil, List.append_assoc]
  refine List.Perm.append_left _ ?_
  simpa using List.perm_append_singleton j.tag (after.map Job.tag ++ s.jobs.results.map Job.tag)

/-- R16: a job that ends keeps its slot and its tag. -/
theorem JobsBounded.endJob {o : JobOutcome} {j : Job} (hs : JobsBounded s) (h : s.FirstOfTag j) :
    JobsBounded (s.endJob o j) := by
  have hperm := endJob_perm (o := o) h
  refine ⟨?_, hperm.nodup_iff.2 hs.tags⟩
  have hlen := hperm.length_eq
  simp only [List.length_map, List.length_append] at hlen
  exact by have := hs.slots; omega

/-- R8: an accepted job takes an EMPTY slot under a tag that no slot holds. -/
theorem JobsBounded.acceptJob {p : QueueJobItems} (hs : JobsBounded s) (hc : passes (queueJobChecks p s)) :
    JobsBounded (s.acceptJob (queuedJob p)) := by
  have hfull : s.jobs.isFull = false := hc (s.jobs.isFull, .full, s.jobs.results.length) (by simp [queueJobChecks])
  have hfresh : s.jobs.holdsTag p.tag.toNat = false :=
    hc (s.jobs.holdsTag p.tag.toNat, .duplicateTag, p.tag.toNat) (by simp [queueJobChecks])
  have hjobs : (s.acceptJob (queuedJob p)).jobs = ⟨s.jobs.live ++ [queuedJob p], s.jobs.results⟩ := by
    simp [State.acceptJob]
  have hroom : ¬ 32 ≤ s.jobs.live.length + s.jobs.results.length := of_decide_eq_false hfull
  simp only [JobStore.holdsTag, Bool.or_eq_false_iff, List.any_eq_false, decide_eq_true_eq] at hfresh
  refine ⟨by simp only [hjobs, List.length_append, List.length_singleton]; omega, ?_⟩
  have hperm : (((s.jobs.live ++ [queuedJob p]) ++ s.jobs.results).map Job.tag).Perm
      (p.tag.toNat :: (s.jobs.live ++ s.jobs.results).map Job.tag) := by
    simp only [List.map_append, List.append_assoc, List.map_cons, List.map_nil]
    exact List.perm_middle
  rw [hjobs]
  refine hperm.nodup_iff.2 (List.nodup_cons.2 ⟨?_, hs.tags⟩)
  simp only [List.map_append, List.mem_append, List.mem_map, not_or, not_exists, not_and]
  exact hfresh

/-- R3: a RESULT slot whose notice has been sent is EMPTY. -/
theorem JobsBounded.tailResults (hs : JobsBounded s) :
    JobsBounded { s with jobs := { s.jobs with results := s.jobs.results.tail } } := by
  have hsub : (s.jobs.live ++ s.jobs.results.tail).Sublist (s.jobs.live ++ s.jobs.results) :=
    (List.Sublist.refl _).append (List.tail_sublist _)
  refine ⟨?_, hs.tags.sublist (hsub.map _)⟩
  have hlen := hsub.length_le
  simp only [List.length_append] at hlen
  exact hlen.trans hs.slots

/-- An empty Job Store is within the bounds. -/
theorem JobsBounded.of_empty (h : s.jobs = ⟨[], []⟩) : JobsBounded s :=
  ⟨by simp [h], by simp [h]⟩

/-- The bounds through the frame cycle. -/
theorem jobsBounded_cycle : CycleKeeps (fun _ => True) JobsBounded := by
  constructor
  case endJob => exact fun s o j h hs => hs.endJob h
  case spoil => exact fun s c l ch _ hs => hs.headCounted (spoil_headCounted ..)
  case countBlank => exact fun s _ hs => hs.headCounted (countBlank_headCounted s)
  case countFrame => exact fun s _ hs => hs.headCounted (countFrame_headCounted s)
  case suspectEnd =>
    intro s ch _ hs
    have hdone : JobsBounded (s.logSuspect ch).completeHead :=
      completeHead_keeps (fun _ _ _ h hu => JobsBounded.endJob hu h) (hs.headCounted (logSuspect_headCounted s ch))
    exact hdone.congr (by simp [State.suspectEnd])
  case running => trivial
  case active => exact fun _ _ _ => trivial
  all_goals
    intros
    rename_i hs
    exact hs.congr (by simp)

/-- Every piece of work keeps the bounds. -/
theorem jobsBounded_keeps : Keeps JobsBounded := by
  have K := jobsBounded_cycle
  constructor
  case acceptJob => exact fun s p _ hc hs => hs.acceptJob hc
  case cancel => exact fun s tag j h hs => hs.endJob (.of_find h)
  case between => exact fun s h0 hr hs => K.between h0 hr hs
  case passBlank => exact fun s h0 hs => K.passBlank h0 hs
  case cleanEnd => exact fun s h0 hx hs => K.cleanEnd h0 hx hs
  case spoil => exact K.spoil
  case fault => exact fun s c hs => K.fault (hs.congr (by simp))
  case interlockOpens => exact fun s l _ hs => K.interlockOpens (hs.congr (by simp))
  case laserReady => exact fun s a b hs => K.laserReady (fun s hs => hs.congr (by simp)) (hs.congr rfl)
  case clockLost => exact fun s ch hs => K.clockLost (hs.congr (by simp)) (fun _ _ _ hs => hs.congr rfl) hs
  case beginExposing => exact fun s _ _ hs => hs.headCounted (beginExposing_headCounted s)
  case closeReel =>
    exact fun s _ _ hs => (flush_keeps (fun _ _ _ h hu => JobsBounded.endJob hu h) hs).1.congr rfl
  case endTransmission =>
    intro s x h0 _ hs
    refine endTransmission_keeps h0 (fun _ _ hs => hs.congr rfl) (fun _ hs => hs.congr rfl) (fun u hu => ?_)
      (fun u _ hu => ?_) hs
    · exact hu.tailResults
    · exact .of_empty (softReset_jobs u)
  case reset => exact fun s _ => .of_empty rfl
  all_goals
    intros
    rename_i hs
    exact hs.congr (by simp)

/-! ## The Spoil Log (R170, R174) -/

/-- The bounds rest on the log, and on what the run state and the phase allow. -/
theorem LogBounded.congr (hs : LogBounded s) (hlog : t.log = s.log)
    (hrun : t.run.state ≠ .stopped → s.run.state ≠ .stopped)
    (hphase : t.seq.phase ≠ .between → t.run.state ≠ .stopped) : LogBounded t :=
  ⟨hlog ▸ hs.size, fun h => hlog ▸ hs.room (hrun h), hlog ▸ hs.unsent, hphase⟩

/-- The bounds rest on log, run state and phase. -/
theorem LogBounded.same (hs : LogBounded s) (hlog : t.log = s.log) (hrun : t.run.state = s.run.state)
    (hphase : t.seq.phase = s.seq.phase) : LogBounded t :=
  hs.congr hlog (by rw [hrun]; exact id) (by rw [hrun, hphase]; exact hs.running)

/-- A halted run leaves room for nothing, and asks for none. -/
theorem LogBounded.halt (hs : LogBounded s) (r : HaltReason) : LogBounded (s.halt r) :=
  hs.congr (by simp) (by simp) (by simp [Sequencer.reset])

/-- R171: an entry appended while there was room for it, by what halts the run. -/
theorem LogBounded.append (hs : LogBounded s) (hr : s.run.state ≠ .stopped) {e : SpoilEntry}
    (hlog : t.log = s.log.append e) (hrun : t.run.state = .stopped) (hphase : t.seq.phase = .between) :
    LogBounded t := by
  have hroom := hs.room hr
  have hunsent := hs.unsent
  refine ⟨?_, fun h => absurd hrun h, ?_, fun h => absurd hphase h⟩
  · rw [hlog]; simp [SpoilLog.append]; omega
  · rw [hlog]; simp [SpoilLog.append]; omega

/-- R173: entries taken make room. -/
theorem LogBounded.takeEntries (hs : LogBounded s) (n : Nat) : LogBounded (s.takeEntries n) := by
  have hlen : (s.takeEntries n).log.entries.length ≤ s.log.entries.length := by simp [State.takeEntries]
  refine ⟨hlen.trans hs.size, fun h => hlen.trans_lt (hs.room (by simpa using h)), ?_, by simpa using hs.running⟩
  simp [State.takeEntries]

/-- The bounds through the frame cycle: outside BETWEEN the run is not STOPPED. -/
theorem logBounded_cycle : CycleKeeps (· ≠ .stopped) LogBounded := by
  constructor
  case running => simp
  case active => exact fun s hs => hs.running
  case halt => exact fun s r hs => hs.halt r
  case spoil => exact fun s c l ch hx hs => hs.append (hs.running (by simp [hx])) rfl rfl rfl
  case suspectEnd =>
    exact fun s ch hr hs => hs.append hr (by simp [State.suspectEnd]; rfl) (by simp [State.suspectEnd])
      (by simp [State.suspectEnd, Sequencer.reset])
  case layDown => exact fun s hs => hs.congr (by simp) (by simp) (by simp [Sequencer.reset])
  case enterPreparing => exact fun s _ hr hs => hs.congr (by simp) (by simp) (fun _ => by simpa using hr)
  case rest => exact fun s hr hs => hs.congr (by simp) (by simp [hr]) (by simp)
  case countBlank => exact fun s _ hs => hs.congr (by simp) (by simp) (by simp [State.countBlank])
  case countFrame => exact fun s _ hs => hs.congr (by simp) (by simp) (by simp [State.countFrame])
  all_goals
    intros
    rename_i hs
    exact hs.same (by simp) (by simp) (by simp)

/-- Every piece of work keeps the bounds. -/
theorem logBounded_keeps : Keeps LogBounded := by
  have K := logBounded_cycle
  constructor
  case takeEntries => exact fun s n _ hs => hs.takeEntries n
  case between => exact fun s h0 hr hs => K.between h0 hr hs
  case passBlank => exact fun s h0 hs => K.passBlank h0 hs
  case cleanEnd => exact fun s h0 hx hs => K.cleanEnd h0 hx hs
  case spoil => exact K.spoil
  case halt => exact K.halt
  case rest => exact K.rest
  case fault => exact fun s c hs => K.fault (hs.same (by simp) (by simp) (by simp))
  case interlockOpens => exact fun s l _ hs => K.interlockOpens (hs.same (by simp) (by simp) (by simp))
  case laserReady =>
    exact fun s a b hs => K.laserReady (fun s hs => hs.same (by simp) (by simp) (by simp)) (hs.same rfl rfl rfl)
  case clockLost =>
    exact fun s ch hs =>
      K.clockLost (hs.same (by simp) (by simp) (by simp)) (fun _ _ _ hs => hs.same rfl rfl rfl) hs
  case beginExposing =>
    exact fun s hp _ hs => hs.congr (by simp) (by simp) (fun _ => by simpa using hs.running (by simp [hp]))
  case beginRun =>
    intro s mode leadIn m l _ hc hs
    have hroom : ¬ 64 ≤ s.log.entries.length := of_decide_eq_false
      (hc (decide (Config.logEntries ≤ s.log.entries.length), .logFull, 64) (by simp [startRunChecks, State.startChecks]))
    exact ⟨hs.size, fun _ => by simpa using hroom, hs.unsent, by simp⟩
  case pause => exact fun s hr hs => hs.congr rfl (by simp [hr]) (by simp)
  case resume => exact fun s l hr _ hs => hs.congr rfl (by rcases hr with hr | hr <;> simp [hr]) (by simp)
  case endTransmission =>
    intro s x h0 _ hs
    refine endTransmission_keeps h0 (fun _ _ hs => hs.same rfl rfl rfl) (fun u hu => ?_)
      (fun _ hs => hs.same rfl rfl rfl) (fun u _ hu => ?_) hs
    · exact ⟨hu.size, hu.room, (Nat.sub_le _ _).trans hu.unsent, hu.running⟩
    · exact (K.softResetRun hu).same rfl rfl rfl
  case reset => exact fun s _ => ⟨by simp [State.afterReset], by simp [State.afterReset], by simp [State.afterReset],
    by simp [State.afterReset, Sequencer.reset]⟩
  all_goals
    intros
    rename_i hs
    exact hs.same (by simp) (by simp) (by simp)

end Stores

/-! ## The obligation -/

/-- Settles O57: every piece of work of a step keeps the bounds of the Job Store and those of the Spoil Log, which rest
on nothing of the queue. -/
theorem stepKeepsStoresBounded : Obligations.StepKeepsStoresBounded :=
  ⟨fun _ _ hs h => jobsBounded_keeps.step (fun _ _ hs => hs.congr rfl) hs h,
    fun _ _ hs h => logBounded_keeps.step (fun _ _ hs => hs.same rfl rfl rfl) hs h⟩

end Sys2Proof.Machine
end

section
/-! The trims within their range and the frame position within the reel: what each piece of work does to the monitor's
trims and to the transport. -/

namespace Sys2Proof.Machine

section Ranges

variable {s t : State}

/-! ## The trims (R165) -/

/-- The range rests on the trims alone. -/
theorem TrimsInRange.congr (hs : TrimsInRange s)
    (h : ∀ ch, (t.monitor.channels.get ch).trim = (s.monitor.channels.get ch).trim) : TrimsInRange t :=
  fun ch => h ch ▸ hs ch

/-- The range rests on the monitor. -/
theorem TrimsInRange.same (hs : TrimsInRange s) (h : t.monitor = s.monitor) : TrimsInRange t :=
  hs.congr fun ch => by rw [h]

/-- A change of every channel that keeps its trim. -/
theorem TrimsInRange.map (hs : TrimsInRange s) {f : MonitorChannel → MonitorChannel}
    (h : t.monitor.channels = s.monitor.channels.map f) (hf : ∀ c, (f c).trim = c.trim) : TrimsInRange t :=
  hs.congr fun ch => by rw [h, Rgb.get_map, hf]

/-- One channel replaced by one whose trim lies within the range. -/
theorem TrimsInRange.setChannel (hs : TrimsInRange s) {ch : Channel} {c : MonitorChannel}
    (hc : c.trim = (s.monitor.channels.get ch).trim) : TrimsInRange (s.setChannel ch c) := by
  refine hs.congr fun y => ?_
  rw [get_setChannel]
  split
  · rename_i h; rw [hc, h]
  · rfl

/-- Flags set on a channel leave its trim. -/
theorem TrimsInRange.setMonitorFlags (hs : TrimsInRange s) (ch : Channel) (f : MonitorFlags) :
    TrimsInRange (s.setMonitorFlags ch f) := by
  have hset := hs.setChannel (ch := ch)
    (c := { s.monitor.channels.get ch with flags := (s.monitor.channels.get ch).flags.union f }) rfl
  simp only [State.setMonitorFlags]
  split
  · exact hset
  · exact hset.same (by simp)

/-- R165 step 3: a trim update holds every trim within the range. -/
theorem trimmed_inRange (targets : Option PowerTargets) (ch : Channel) {c : MonitorChannel}
    (h : 3072 ≤ c.trim ∧ c.trim ≤ 5120) :
    3072 ≤ (trimmed targets ch c).trim ∧ (trimmed targets ch c).trim ≤ 5120 := by
  unfold trimmed
  split
  · split
    · exact ⟨le_max_left _ _, max_le (by omega) (min_le_left _ _)⟩
    · exact h
  · exact h

theorem TrimsInRange.trimUpdate (hs : TrimsInRange s) : TrimsInRange s.trimUpdate := by
  intro ch
  rw [(trimUpdate_trimmed s).1 ch]
  exact trimmed_inRange _ _ (hs ch)

/-- A reading leaves the trims. -/
theorem TrimsInRange.takeReading (hs : TrimsInRange s) (p : PowerTargets) (ch : Channel) (ones : Option Nat) :
    TrimsInRange (s.takeReading p ch ones) := by
  simp only [State.takeReading]
  split
  · split
    · exact (hs.setChannel (by simp [MonitorChannel.take])).setMonitorFlags _ _
    · exact hs
  · exact hs

/-- R162: the flags that Get Status clears are no trims. -/
theorem clearReported_trim (s : State) (ch : Channel) :
    (s.clearReported.monitor.channels.get ch).trim = (s.monitor.channels.get ch).trim := by
  simp only [State.clearReported, Monitor.clearReported]
  split <;> simp

/-- A line laid out at its facet sync leaves the trims. -/
theorem layLine_trim (s : State) (line facet : Nat) (reel : Reel) (work : Work) (rows : List Row) (ch : Channel) :
    ((layLine line facet reel work rows s).monitor.channels.get ch).trim = (s.monitor.channels.get ch).trim := by
  simp [layLine]

/-- The range through the frame cycle. -/
theorem trimsInRange_cycle : CycleKeeps (fun _ => True) TrimsInRange := by
  have blanked : ∀ s t : State, TrimsInRange s → t.monitor = (blankDrive s).monitor → TrimsInRange t :=
    fun s t hs h => hs.map (f := fun c => { c with expecting := false }) (by rw [h]; rfl) fun _ => rfl
  constructor
  case running => trivial
  case active => exact fun _ _ _ => trivial
  case trimUpdate => exact fun s hs => hs.trimUpdate
  case halt => exact fun s r hs => blanked s _ hs rfl
  case layDown => exact fun s hs => blanked s _ hs rfl
  case rest => exact fun s _ hs => blanked s _ hs rfl
  case enterPreparing => exact fun s _ _ hs => blanked s _ hs rfl
  case countFrame => exact fun s _ hs => blanked s _ hs rfl
  case spoil =>
    exact fun s c l ch _ hs => blanked (blankDrive s) _ (blanked s _ hs rfl) rfl
  case takeMeans =>
    exact fun s hs => hs.map (f := MonitorChannel.frameMean s.rasterLines) rfl fun c => by
      unfold MonitorChannel.frameMean; split <;> rfl
  case suspectEnd =>
    intro s ch _ hs
    have hlogged : TrimsInRange (s.logSuspect ch) := hs.map (f := MonitorChannel.withoutMean) rfl fun _ => rfl
    exact blanked (s.logSuspect ch) _ hlogged (by simp [State.suspectEnd, State.halt, State.layDown, blankDrive])
  all_goals
    intros
    rename_i hs
    exact hs.same (by simp)

/-- Every piece of work keeps the range. -/
theorem trimsInRange_keeps : Keeps TrimsInRange := by
  have K := trimsInRange_cycle
  have hblank : ∀ s, TrimsInRange s → TrimsInRange (blankDrive s) :=
    fun s hs => hs.map (f := fun c => { c with expecting := false }) rfl fun _ => rfl
  constructor
  case between => exact fun s h0 hr hs => K.between h0 hr hs
  case passBlank => exact fun s h0 hs => K.passBlank h0 hs
  case cleanEnd => exact fun s h0 hx hs => K.cleanEnd h0 hx hs
  case spoil => exact K.spoil
  case halt => exact K.halt
  case rest => exact K.rest
  case fault => exact fun s c hs => K.fault (hs.same (by simp))
  case interlockOpens =>
    exact fun s l _ hs => K.interlockOpens ((hblank _ (hs.same (t := s.setLevels l) (by simp))).same rfl)
  case laserReady => exact fun s a b hs => K.laserReady hblank (hs.same rfl)
  case clockLost =>
    intro s ch hs
    have hset : TrimsInRange
        (s.setChannel ch { s.monitor.channels.get ch with lost := true, expecting := false }) := hs.setChannel rfl
    exact K.clockLost (hset.setMonitorFlags ch _) (fun _ _ _ hs => hs.same rfl) hs
  case clockReturn => exact fun s ch hs => hs.setChannel rfl
  case clearReported => exact fun s hs => hs.congr (clearReported_trim s)
  case targets => exact fun s p hs ch => by simp [MonitorChannel.retarget, Config.trimUnit]
  case readMonitor => exact fun s hs => hs.map (f := fun c => { c with isFresh := false }) rfl fun _ => rfl
  case reading =>
    exact fun s p o _ hs => ((hs.takeReading p .red o.red).takeReading p .green o.green).takeReading p .blue o.blue
  case beginExposing => exact fun s _ _ hs => hs.map (f := MonitorChannel.newFrame) rfl fun _ => rfl
  case takeSet =>
    intro s line facet reel j set rest _ _ _ _ hs
    have hlaid : TrimsInRange (layLine line facet reel j.work set.rows { s with seq := { s.seq with queue := rest } }) :=
      hs.congr fun ch => layLine_trim { s with seq := { s.seq with queue := rest } } ..
    exact hlaid.same (by simp)
  case flashLine => exact fun s line facet reel work _ _ hs => hs.congr fun ch => layLine_trim s ..
  case endTransmission =>
    intro s x h0 _ hs
    refine endTransmission_keeps h0 (fun _ _ hs => hs.same rfl) (fun _ hs => hs.same rfl)
      (fun _ hs => hs.same rfl) (fun u _ hu => ?_) hs
    exact (K.softResetRun hu).map (f := MonitorChannel.softReset) rfl fun _ => rfl
  case reset =>
    intro s _ ch
    have htrim : ((State.afterReset true s.link.rate s.link.hrdy s.pins.levels (s.freeEpoch + 1)
        s.pending).monitor.channels.get ch).trim = 4096 := by cases ch <;> rfl
    rw [htrim]
    exact ⟨by decide, by decide⟩
  all_goals
    intros
    rename_i hs
    exact hs.same (by simp)

/-! ## The frame position (R126) -/

/-- R123, R124: a pull-down is in flight. -/
def Transport.moving (x : Transport) : Prop :=
  x.state = .advancing ∨ (x.state = .settling ∧ x.settleEnds = some .pullDown)

/-- The bounds rest on the reel and the position, and on the pull-down in flight. -/
theorem PositionInReel.congr (hs : PositionInReel s) (hreel : t.reel = s.reel)
    (hpos : t.transport.position = s.transport.position) (hmove : t.transport.moving → s.transport.moving) :
    PositionInReel t :=
  ⟨fun r h => hpos ▸ hs.position r (hreel ▸ h), fun r h hm => hpos ▸ hs.moving r (hreel ▸ h) (hmove hm)⟩

/-- The bounds rest on reel and transport. -/
theorem PositionInReel.same (hs : PositionInReel s) (hreel : t.reel = s.reel) (htrans : t.transport = s.transport) :
    PositionInReel t :=
  hs.congr hreel (by rw [htrans]) (by rw [htrans]; exact id)

/-- With no pull-down in flight. -/
theorem PositionInReel.still (hs : PositionInReel s) (hreel : t.reel = s.reel)
    (hpos : t.transport.position = s.transport.position) (hstill : ¬ t.transport.moving) : PositionInReel t :=
  hs.congr hreel hpos fun h => absurd h hstill

/-- With no reel open there is no bound. -/
theorem PositionInReel.of_noReel (h : s.reel = none) : PositionInReel s :=
  ⟨fun r hr => by simp [h] at hr, fun r hr => by simp [h] at hr⟩

/-- R123: what a pull-down that is taken finds: film registered, short of the last position. -/
theorem pullDownAnswer_taken (h : s.pullDownAnswer = .taken) :
    s.transport.state = .registered ∧ s.pins.levels.endSensor = false ∧
      ∀ r, s.reel = some r → s.transport.position ≠ r.capacity - 1 := by
  unfold State.pullDownAnswer at h
  split at h
  · cases h
  · rename_i hregistered
    split at h
    · cases h
    · rename_i hlast
      split at h
      · cases h
      · rename_i hend
        refine ⟨by simpa using hregistered, by simpa using hend, fun r hr => ?_⟩
        simpa [hr] using hlast

/-- R123: a pull-down is taken only where the position after it is still in the reel. -/
theorem PositionInReel.startPullDown (hs : PositionInReel s) (h : s.pullDownAnswer = .taken) :
    PositionInReel s.startPullDown := by
  refine ⟨hs.position, fun r hr _ => ?_⟩
  have hin := hs.position r hr
  have hlast := (pullDownAnswer_taken h).2.2 r hr
  simp only [State.startPullDown]
  omega

/-- R130: the next pull-down of a series. -/
theorem PositionInReel.nextPullDown (hs : PositionInReel s) (x : Series) : PositionInReel (s.nextPullDown x) := by
  unfold State.nextPullDown
  split
  · rename_i h
    exact PositionInReel.startPullDown (s := { s with transport := { s.transport with series := some x } })
      (hs.congr rfl rfl id) h
  all_goals exact hs.congr rfl rfl id

/-- R125, R130: a pull-down that has registered, and the series that goes on. -/
theorem PositionInReel.registered (hs : PositionInReel s) (hsettle : s.transport.state = .settling)
    (hends : s.transport.settleEnds = some .pullDown) :
    PositionInReel (State.seriesRegistered { s with transport :=
      { s.transport with
        state := .registered
        settleTimer := none
        settleEnds := none
        position := s.transport.position + 1
        gate := .fresh } }) := by
  have hadvanced : PositionInReel { s with transport :=
      { s.transport with
        state := .registered
        settleTimer := none
        settleEnds := none
        position := s.transport.position + 1
        gate := .fresh } } :=
    ⟨fun r hr => hs.moving r hr (.inr ⟨hsettle, hends⟩), fun r hr hm => by simp at hm⟩
  simp only [State.seriesRegistered]
  split
  · exact hadvanced
  · split
    · exact hadvanced.congr rfl rfl id
    · exact hadvanced.nextPullDown _

/-- The bounds through the frame cycle. -/
theorem positionInReel_cycle : CycleKeeps (fun _ => True) PositionInReel := by
  constructor
  case running => trivial
  case active => exact fun _ _ _ => trivial
  case startPullDown => exact fun s h hs => hs.startPullDown h
  case countBlank => exact fun s _ hs => hs.congr rfl rfl id
  all_goals
    intros
    rename_i hs
    exact hs.same (by simp) (by simp)

/-- Every piece of work keeps the bounds. -/
theorem positionInReel_keeps : Keeps PositionInReel := by
  have K := positionInReel_cycle
  constructor
  case between => exact fun s h0 hr hs => K.between h0 hr hs
  case passBlank => exact fun s h0 hs => K.passBlank h0 hs
  case cleanEnd => exact fun s h0 hx hs => K.cleanEnd h0 hx hs
  case fault =>
    exact fun s c hs => K.fault (hs.still (by simp) (by simp [Transport.enterFault])
      (by simp [Transport.enterFault, Transport.moving]))
  case interlockOpens => exact fun s l _ hs => K.interlockOpens (hs.same (by simp) (by simp))
  case laserReady =>
    exact fun s a b hs => K.laserReady (fun s hs => hs.same (by simp) (by simp)) (hs.same rfl rfl)
  case clockLost =>
    exact fun s ch hs => K.clockLost (hs.same (by simp) (by simp)) (fun _ _ _ hs => hs.same rfl rfl) hs
  case openReel =>
    intro s p hc _
    have hstill : ¬ (s.transport.state = .advancing ∨ s.transport.state = .settling) := of_decide_eq_false
      (hc (decide (s.transport.state = .advancing ∨ s.transport.state = .settling), .busy, 1) (by simp [openReelChecks]))
    have hstart : ¬ p.capacity.toNat ≤ p.start.toNat := of_decide_eq_false
      (hc (decide (p.capacity.toNat ≤ p.start.toNat), .badValue, 2) (by simp [openReelChecks]))
    refine ⟨fun r hr => ?_, fun r _ hm => ?_⟩
    · cases hr
      exact Nat.lt_of_not_le hstart
    · exact absurd (hm.imp id And.left) hstill
  case closeReel => exact fun s _ _ _ => .of_noReel rfl
  case registerGate =>
    exact fun s g _ hs => hs.still rfl rfl (by simp [Transport.startSettle, Transport.moving])
  case timing => exact fun s a b hs => hs.congr rfl rfl id
  case clearTransport =>
    exact fun s b _ hs => hs.still rfl rfl (by cases b <;> simp [Transport.moving])
  case advance => exact fun s count _ _ hs => (hs.same (t := s.await) rfl rfl).nextPullDown _
  case perf => exact fun s n _ hs => hs.congr rfl rfl id
  case settle => exact fun s h hs => hs.congr rfl rfl fun _ => .inl h
  case registered => exact fun s h he hs => hs.registered h he
  case gateRegistered => exact fun s g _ hs => hs.still rfl rfl (by simp [Transport.moving])
  case filmIn => exact fun s _ hs => hs.still rfl rfl (by simp [Transport.moving])
  case beginExposing => exact fun s _ _ hs => hs.congr rfl rfl id
  case endTransmission =>
    intro s x h0 _ hs
    refine endTransmission_keeps h0 (fun _ _ hs => hs.same rfl rfl) (fun _ hs => hs.same rfl rfl)
      (fun _ hs => hs.same rfl rfl) (fun u _ hu => ?_) hs
    have htrans : u.softReset.transport = u.transport.softReset := by
      simp [State.softReset, State.softResetLink, State.softResetBlocks, State.dropJobs]
    refine hu.still (by simp) ?_ ?_
    · rw [htrans]; unfold Transport.softReset; split <;> rfl
    · rw [htrans]; unfold Transport.softReset; split
      · simp [Transport.moving]
      · rename_i h; exact fun hm => h (hm.imp id And.left)
  case reset => exact fun s _ => .of_noReel rfl
  case levelsInReset =>
    intro s l _ hs
    refine ⟨fun r hr => Nat.zero_lt_of_lt (hs.position r hr), fun r _ hm => ?_⟩
    cases h : l.filmPresent <;> simp [Transport.reset, h] at hm
  all_goals
    intros
    rename_i hs
    exact hs.same (by simp) (by simp)

end Ranges

/-! ## The obligation -/

/-- Settles O56: the trim update alone moves a trim, within the clamp; a pull-down alone moves the film, and is taken only
short of the last position. -/
theorem stepKeepsTrimsAndPosition : Obligations.StepKeepsTrimsAndPosition :=
  ⟨fun _ _ hs h => trimsInRange_keeps.step (fun _ _ hs => hs.same rfl) hs h,
    fun _ _ hs h => positionInReel_keeps.step (fun _ _ hs => hs.same rfl rfl) hs h⟩

end Sys2Proof.Machine
end

section
/-! Laser drive within EXPOSING with the interlock CLOSED and every channel READY: what each piece of work does to the
drive and to what it rests on. -/

namespace Sys2Proof.Machine

section Drive

variable {s t : State}

/-- The safety of the drive rests on drive, phase, interlock, lasers, run state and RESET pin. -/
theorem DriveSafe.congr (hs : DriveSafe s) (hdrive : t.drive = s.drive) (hphase : t.seq.phase = s.seq.phase)
    (hlock : t.pins.levels.interlock = s.pins.levels.interlock) (hlasers : t.lasers = s.lasers)
    (hrun : t.run.state = s.run.state) (hreset : t.resetPin = s.resetPin) : DriveSafe t :=
  ⟨by rw [hdrive, hphase]; exact hs.driven, by rw [hphase, hlock]; exact hs.closed,
    by rw [hphase, hlasers]; exact hs.ready, by rw [hphase, hrun]; exact hs.running,
    by rw [hphase, hreset]; exact hs.released⟩

/-- R112, R158: in BETWEEN with every channel blanked nothing is asked for. -/
theorem DriveSafe.of_idle (hdrive : s.drive = none) (hphase : s.seq.phase = .between) : DriveSafe s :=
  ⟨by simp [hdrive], by simp [hphase], by simp [hphase], by simp [hphase], by simp [hphase]⟩

/-- No line is driven outside EXPOSING. -/
theorem DriveSafe.blanked (hs : DriveSafe s) (hphase : s.seq.phase ≠ .exposing) : s.drive = none := by
  cases hdrive : s.drive with
  | none => rfl
  | some l => exact absurd (hs.driven (by simp [hdrive])) hphase

/-- In BETWEEN the interlock, the lasers, the run state and the RESET pin are free. -/
theorem DriveSafe.between (hs : DriveSafe s) (hphase : s.seq.phase = .between) (hdrive : t.drive = s.drive)
    (hsame : t.seq.phase = s.seq.phase) : DriveSafe t :=
  .of_idle (hdrive.trans (hs.blanked (by simp [hphase]))) (hsame.trans hphase)

/-- R106, R156: whatever a fault meets with every channel blanked, nothing is driven after it. -/
theorem DriveSafe.meetFault (hdrive : s.drive = none) (c : SpoilCause) (ch : Option Channel) :
    DriveSafe (s.meetFault c ch) := by
  unfold State.meetFault
  split
  · exact .of_idle rfl rfl
  · exact .of_idle rfl rfl
  · split
    · exact .of_idle hdrive ‹_›
    · exact .of_idle rfl rfl

/-- The drive is safe through the frame cycle: outside BETWEEN the run is RUNNING or PAUSING. -/
theorem driveSafe_cycle : CycleKeeps (fun r => r = .running ∨ r = .pausing) DriveSafe := by
  constructor
  case running => exact .inl rfl
  case active => exact fun s hs => hs.running
  case halt => exact fun s r _ => .of_idle rfl rfl
  case spoil => exact fun s c l ch _ _ => .of_idle rfl rfl
  case layDown => exact fun s _ => .of_idle rfl rfl
  case rest => exact fun s _ _ => .of_idle rfl rfl
  case suspectEnd => exact fun s ch _ _ => .of_idle rfl rfl
  case countFrame => exact fun s _ _ => .of_idle rfl rfl
  case countBlank => exact fun s hp hs => .of_idle (hs.blanked (by simp [hp])) rfl
  case enterPreparing =>
    exact fun s h0 hr _ => ⟨fun h => (nomatch h), fun h => (nomatch h), fun h => (nomatch h), fun _ => hr, fun _ => h0⟩
  all_goals
    intros
    rename_i hs
    exact hs.congr (by simp) (by simp) (by simp) (by simp) (by simp) (by simp)

/-- R153: Enable Lasers leaves channels that are READY as they are. -/
theorem enabled_ready (named ready : Rgb Bool) :
    Rgb.zip (fun f st => f st) (Rgb.zip enabled named ready) (Rgb.same .ready) = Rgb.same .ready := by
  obtain ⟨r, g, b⟩ := named
  cases r <;> cases g <;> cases b <;> rfl

/-- R154: a channel that is READY and does not enter FAULT stays READY. -/
theorem nextLaser_ready {old new : Rgb Bool}
    (h : Rgb.first id (Rgb.zip (fun a b => decide (a ≠ b ∧ b = LaserState.fault)) (Rgb.same .ready)
      (Rgb.zip (fun f st => f st) (Rgb.zip nextLaser old new) (Rgb.same .ready))) = none) :
    Rgb.zip (fun f st => f st) (Rgb.zip nextLaser old new) (Rgb.same .ready) = Rgb.same .ready := by
  have stays : ∀ a b, decide (LaserState.ready ≠ nextLaser a b .ready ∧ nextLaser a b .ready = .fault) = false →
      nextLaser a b .ready = .ready := by decide
  have hch := (Rgb.first_none _ _).1 h
  exact congr (congr (congrArg Rgb.mk (stays _ _ (hch .red))) (stays _ _ (hch .green))) (stays _ _ (hch .blue))

/-- R94: what the exposure start conditions say of lasers and interlock. -/
theorem mayExpose_safe (h : s.mayExpose = true) : s.lasers = Rgb.same .ready ∧ s.pins.levels.interlock = true := by
  unfold State.mayExpose at h
  split at h
  · simp only [Bool.and_eq_true, Rgb.all, decide_eq_true_eq] at h
    obtain ⟨⟨⟨-, ⟨hred, hgreen⟩, hblue⟩, hlock⟩, -⟩ := h
    refine ⟨?_, hlock⟩
    cases hl : s.lasers
    simp_all [Rgb.same]
  · cases h

/-- R187: Get Status clears changed flags, and leaves the levels. -/
@[simp] theorem clearReported_levels (s : State) : s.clearReported.pins.levels = s.pins.levels := rfl

/-- Every piece of work keeps the drive safe. -/
theorem driveSafe_keeps : Keeps DriveSafe := by
  have K := driveSafe_cycle
  constructor
  case between => exact fun s h0 hr hs => K.between h0 hr hs
  case passBlank => exact fun s h0 hs => K.passBlank h0 hs
  case cleanEnd => exact fun s h0 hx hs => K.cleanEnd h0 hx hs
  case halt => exact K.halt
  case spoil => exact K.spoil
  case rest => exact K.rest
  case fault =>
    exact fun s c hs => K.fault (hs.congr (by simp) (by simp) (by simp) (by simp) (by simp) (by simp))
  case beginRun =>
    exact fun s mode leadIn m l _ _ hs => ⟨hs.driven, hs.closed, hs.ready, fun _ => .inl rfl, hs.released⟩
  case pause => exact fun s _ hs => ⟨hs.driven, hs.closed, hs.ready, fun _ => .inr rfl, hs.released⟩
  case resume => exact fun s l _ _ hs => ⟨hs.driven, hs.closed, hs.ready, fun _ => .inl rfl, hs.released⟩
  case setLevels =>
    intro s l hl hs
    refine ⟨by simpa using hs.driven, fun hx => ?_, by simpa using hs.ready, by simpa using hs.running,
      by simpa using hs.released⟩
    have hclosed := hs.closed (by simpa using hx)
    cases h : l.interlock with
    | true => simp [h]
    | false => rw [hl h] at hclosed; cases hclosed
  case enable =>
    intro s mask _ hs
    refine ⟨hs.driven, hs.closed, fun hx => ?_, hs.running, hs.released⟩
    rw [hs.ready hx]
    exact enabled_ready _ _
  case disable =>
    intro s l hr hs
    have hphase : s.seq.phase = .between := by
      by_contra h
      simpa [hr] using hs.running h
    exact hs.between hphase rfl rfl
  case interlockOpens => exact fun s l _ _ => DriveSafe.meetFault (by simp) _ _
  case laserReady =>
    intro s a b hs
    simp only [laserReadyEffect]
    split
    · exact DriveSafe.meetFault (by simp) _ _
    · rename_i hnone
      refine ⟨hs.driven, hs.closed, fun hx => ?_, hs.running, hs.released⟩
      rw [hs.ready hx] at hnone ⊢
      exact nextLaser_ready hnone
  case clockLost =>
    exact fun s ch hs => K.clockLost (hs.congr (by simp) (by simp) (by simp) (by simp) (by simp) (by simp))
      (fun _ _ _ hs => hs.congr rfl rfl rfl rfl rfl rfl) hs
  case beginExposing =>
    intro s hp hx hs
    obtain ⟨hlasers, hlock⟩ := mayExpose_safe hx
    exact ⟨fun _ => rfl, fun _ => by simpa using hlock, fun _ => by simpa using hlasers,
      fun _ => by simpa using hs.running (by simp [hp]), fun _ => by simpa using hs.released (by simp [hp])⟩
  case takeSet =>
    intro s line facet reel j set rest hx _ _ _ hs
    exact ⟨fun _ => by simpa using hx, by simpa using hs.closed, by simpa using hs.ready, by simpa using hs.running,
      by simpa using hs.released⟩
  case flashLine =>
    intro s line facet reel work hx _ hs
    exact ⟨fun _ => by simpa using hx, by simpa using hs.closed, by simpa using hs.ready, by simpa using hs.running,
      by simpa using hs.released⟩
  case endTransmission =>
    intro s x h0 _ hs
    refine endTransmission_keeps h0 (fun _ _ hs => hs.congr rfl rfl rfl rfl rfl rfl)
      (fun _ hs => hs.congr rfl rfl rfl rfl rfl rfl) (fun _ hs => hs.congr rfl rfl rfl rfl rfl rfl)
      (fun u _ hu => ?_) hs
    -- Soft Reset turns every laser OFF after the run has ended
    have hended : u.softResetRun.drive = none ∧ u.softResetRun.seq.phase = .between := by
      unfold State.softResetRun
      split <;> exact ⟨rfl, rfl⟩
    exact .of_idle hended.1 hended.2
  case reset => exact fun s _ => .of_idle rfl rfl
  case release =>
    intro s r hr hs
    have hphase : s.seq.phase = .between := by
      by_contra h
      simpa [hr] using hs.released h
    exact hs.between hphase rfl rfl
  case levelsInReset =>
    intro s l hr hs
    have hphase : s.seq.phase = .between := by
      by_contra h
      simpa [hr] using hs.released h
    exact hs.between hphase rfl rfl
  all_goals
    intros
    rename_i hs
    exact hs.congr (by simp) (by simp) (by simp) (by simp) (by simp) (by simp)

/-- R158: with no line under way every channel is blanked. -/
theorem output_blanked (hdrive : s.drive = none) (ch : Channel) (time : Nat) : s.output ch time = ⟨0, false, true⟩ := by
  rw [State.output, hdrive]
  rfl

end Drive

/-! ## The obligation -/

/-- Settles O55: every piece of work keeps the drive safe; a channel that is not blanked is in a line under way, which is
driven in EXPOSING alone. -/
theorem stepKeepsDriveSafe : Obligations.StepKeepsDriveSafe := by
  refine ⟨fun _ _ hs h => driveSafe_keeps.step (fun _ _ hs => hs.congr rfl rfl rfl rfl rfl rfl) hs h, ?_⟩
  intro s ch time hs hout
  have hx : s.seq.phase = .exposing := by
    by_contra h
    exact hout (output_blanked (hs.blanked h) ch time)
  refine ⟨hx, hs.closed hx, ?_⟩
  rw [hs.ready hx]
  cases ch <;> rfl

end Sys2Proof.Machine
end

section
/-! The frame store in canonical form, the Line Prefetch Queue in line order, and the receive buffer within its two
places: what each piece of work does to the three buffers. -/

namespace Sys2Proof.Machine

section Buffers

variable {s t : State}

/-! ## The frame store (R27) -/

theorem StoreCanonical.congr (hs : StoreCanonical s) (h : t.store = s.store) : StoreCanonical t := by
  rw [StoreCanonical, h]; exact hs

theorem storeCanonical_cycle : CycleKeeps (fun _ => True) StoreCanonical := by
  constructor
  case running => trivial
  case active => exact fun _ _ _ => trivial
  all_goals
    intros
    rename_i hs
    exact hs.congr (by simp)

/-- R27, R38: the store after a completed write. -/
theorem StoreCanonical.writeComplete (hs : StoreCanonical s) : StoreCanonical (writeComplete s) := by
  unfold Machine.writeComplete
  split
  · rename_i c hc
    have hwritten : StoreCanonical { s with store := Memory.writeLine s.store c.slot c.words } :=
      Memory.wf_writeLine hs _ _
    exact hwritten.congr (by simp)
  all_goals exact hs

/-- Every piece of work keeps the canonical form. -/
theorem storeCanonical_keeps : Keeps StoreCanonical := by
  have K := storeCanonical_cycle
  constructor
  case between => exact fun s h0 hr hs => K.between h0 hr hs
  case passBlank => exact fun s h0 hs => K.passBlank h0 hs
  case cleanEnd => exact fun s h0 hx hs => K.cleanEnd h0 hx hs
  case writeComplete => exact fun s hs => hs.writeComplete
  case interlockOpens => exact fun s l _ hs => K.interlockOpens (hs.congr (by simp))
  case laserReady => exact fun s a b hs => K.laserReady (fun s hs => hs.congr (by simp)) (hs.congr rfl)
  case clockLost => exact fun s ch hs => K.clockLost (hs.congr (by simp)) (fun _ _ _ hs => hs.congr rfl) hs
  case endTransmission =>
    exact fun s x h0 _ hs => endTransmission_keeps h0 (fun _ _ hs => hs.congr rfl) (fun _ hs => hs.congr rfl)
      (fun _ hs => hs.congr rfl) (fun _ _ hs => hs.congr (by simp)) hs
  case reset => exact fun s _ => Memory.wf_reset
  all_goals
    intros
    rename_i hs
    exact hs.congr (by simp)

/-! ## The Line Prefetch Queue (R88) -/

@[simp] theorem prefetch_queue (s : State) : s.prefetch.seq.queue = s.seq.queue := by
  rw [prefetch_only]

@[simp] theorem prefetch_cursor (s : State) : s.prefetch.seq.cursor = s.seq.cursor := by
  rw [prefetch_only]

/-- A line cut short changes the saturation mark alone. -/
theorem cutLine_seq (s : State) (elapsed : Nat) :
    ∃ mark, (cutLine elapsed s).seq = { s.seq with saturation := mark } := by
  unfold cutLine
  split
  · exact ⟨_, rfl⟩
  · exact ⟨s.seq.saturation, rfl⟩

/-- The order rests on queue, cursor and the set in assembly. -/
theorem QueueInOrder.congr (hs : QueueInOrder s) (hq : t.seq.queue = s.seq.queue)
    (hc : t.seq.cursor = s.seq.cursor) (ha : t.seq.assembly = s.seq.assembly) : QueueInOrder t :=
  ⟨by rw [hq, ha]; exact hs.size, by rw [hq, hc]; exact hs.lines, by rw [hq, hc]; exact hs.cursor,
    by rw [ha, hc]; exact hs.assembly⟩

/-- The order rests on the sequencer. -/
theorem QueueInOrder.same (hs : QueueInOrder s) (h : t.seq = s.seq) : QueueInOrder t :=
  hs.congr (by rw [h]) (by rw [h]) (by rw [h])

/-- An empty queue with no set in assembly is in order. -/
theorem QueueInOrder.of_empty (hq : s.seq.queue = []) (ha : s.seq.assembly = none) : QueueInOrder s :=
  ⟨by simp [hq, ha], by simp [hq], by simp [hq], by simp [ha]⟩

/-- R93: a set is begun at the cursor while the queue has room for it. -/
theorem QueueInOrder.prefetch (hs : QueueInOrder s) : QueueInOrder s.prefetch := by
  have hassembly := prefetch_assembly s
  cases h : s.prefetchable with
  | nil => exact hs.congr (by simp) (by simp) (by simpa [h] using hassembly)
  | cons sel sels =>
    obtain ⟨reel, hbegins⟩ := prefetchable_begins h
    rw [h, if_neg (by simp)] at hassembly
    refine ⟨?_, by simpa using hs.lines, by simpa using hs.cursor, fun a ha => ?_⟩
    · rw [hassembly, prefetch_queue]
      exact hbegins.room
    · rw [hassembly] at ha
      cases ha
      simp

/-- R88: a row joins the set in assembly, or completes it: the set joins the tail, and the cursor moves on. -/
theorem QueueInOrder.addRow (hs : QueueInOrder s) (words : List Half) : QueueInOrder (s.addRow words) := by
  unfold State.addRow
  split
  · exact hs
  · rename_i a ha
    have hline := hs.assembly a ha
    have hsize := hs.size
    simp only [ha, Option.isSome_some, if_true] at hsize
    split
    · exact hs
    · dsimp only
      split
      · refine ⟨by simpa using hsize, ?_, ?_, by simp⟩
        · have hcursor := hs.cursor
          simp only [List.map_append, List.map_cons, List.map_nil, List.length_append, List.length_singleton,
            List.range_succ, hs.lines, hline]
          congr 1
          · exact List.map_congr_left fun k _ => by omega
          · congr 1
            omega
        · have hcursor := hs.cursor
          simp only [List.length_append, List.length_singleton, hline]
          omega
      · refine ⟨by simpa using hsize, hs.lines, hs.cursor, fun b hb => ?_⟩
        simp only [Option.some.injEq] at hb
        rw [← hb, hline]

/-- R101: the head of the queue is taken for a line. -/
theorem QueueInOrder.takeHead (hs : QueueInOrder s) {set : LineSet} {rest : List LineSet}
    (hq : s.seq.queue = set :: rest) : QueueInOrder { s with seq := { s.seq with queue := rest } } := by
  have hsize := hs.size
  have hcursor := hs.cursor
  have hlines := hs.lines
  rw [hq] at hsize hcursor hlines
  simp only [List.length_cons] at hsize hcursor
  refine ⟨by dsimp only; omega, ?_, by dsimp only; omega, hs.assembly⟩
  simp only [List.map_cons, List.length_cons, List.range_succ_eq_map, List.map_map, List.cons.injEq] at hlines
  refine hlines.2.trans (List.map_congr_left fun k _ => ?_)
  simp only [Function.comp_apply, Nat.succ_eq_add_one]
  omega

/-- A line laid out leaves queue, cursor and assembly. -/
theorem QueueInOrder.layLine (hs : QueueInOrder s) (line facet : Nat) (reel : Reel) (work : Work) (rows : List Row) :
    QueueInOrder (layLine line facet reel work rows s) := hs.congr rfl rfl rfl

/-- The order through the frame cycle. -/
theorem queueInOrder_cycle : CycleKeeps (fun _ => True) QueueInOrder := by
  constructor
  case running => trivial
  case active => exact fun _ _ _ => trivial
  case halt => exact fun s r _ => .of_empty rfl rfl
  case spoil => exact fun s c l ch _ _ => .of_empty rfl rfl
  case layDown => exact fun s _ => .of_empty rfl rfl
  case rest => exact fun s _ _ => .of_empty rfl rfl
  case enterPreparing => exact fun s _ _ _ => .of_empty rfl rfl
  case suspectEnd => exact fun s ch _ _ => .of_empty rfl rfl
  case prefetch => exact fun s hs => hs.prefetch
  case countBlank => exact fun s _ hs => hs.congr rfl rfl rfl
  case countFrame => exact fun s _ hs => hs.congr rfl rfl rfl
  all_goals
    intros
    rename_i hs
    exact hs.same (by simp)

/-- R41, R88: a completed read. -/
theorem QueueInOrder.readComplete (hs : QueueInOrder s) : QueueInOrder (readComplete s) := by
  unfold Machine.readComplete
  split
  · have hidle : QueueInOrder { s with arbiter := { s.arbiter with access := none, lastServed := .prefetcher } } :=
      hs.same rfl
    dsimp only
    split
    · exact hidle.prefetch
    · exact (hidle.addRow _).prefetch
  all_goals exact hs

/-- R38, R93: a completed write. -/
theorem QueueInOrder.writeComplete (hs : QueueInOrder s) : QueueInOrder (writeComplete s) := by
  unfold Machine.writeComplete
  split
  · exact QueueInOrder.prefetch (hs.same (by simp))
  all_goals exact hs

/-- Every piece of work keeps the order. -/
theorem queueInOrder_keeps : Keeps QueueInOrder := by
  have K := queueInOrder_cycle
  constructor
  case between => exact fun s h0 hr hs => K.between h0 hr hs
  case passBlank => exact fun s h0 hs => K.passBlank h0 hs
  case cleanEnd => exact fun s h0 hx hs => K.cleanEnd h0 hx hs
  case halt => exact K.halt
  case spoil => exact K.spoil
  case rest => exact K.rest
  case leadTimer => exact fun s hs => hs.congr rfl rfl rfl
  case nextLine => exact fun s n _ hs => hs.congr rfl rfl rfl
  case cutLine =>
    intro s e _ hs
    obtain ⟨mark, hmark⟩ := cutLine_seq s e
    exact hs.congr (by rw [hmark]) (by rw [hmark]) (by rw [hmark])
  case beginExposing => exact fun s _ _ hs => hs.congr rfl rfl rfl
  case takeSet => exact fun s line facet reel j set rest _ _ _ hq hs => ((hs.takeHead hq).layLine ..).prefetch
  case flashLine => exact fun s line facet reel work _ _ hs => hs.layLine ..
  case readComplete => exact fun s hs => hs.readComplete
  case writeComplete => exact fun s hs => hs.writeComplete
  case fault => exact fun s c hs => K.fault (hs.same (by simp))
  case interlockOpens => exact fun s l _ hs => K.interlockOpens (hs.same (by simp))
  case laserReady => exact fun s a b hs => K.laserReady (fun s hs => hs.same (by simp)) (hs.same rfl)
  case clockLost => exact fun s ch hs => K.clockLost (hs.same (by simp)) (fun _ _ _ hs => hs.congr rfl rfl rfl) hs
  case endTransmission =>
    exact fun s x h0 _ hs => endTransmission_keeps h0 (fun _ _ hs => hs.same rfl) (fun _ hs => hs.same rfl)
      (fun _ hs => hs.same rfl) (fun u _ hu => (K.softResetRun hu).same rfl) hs
  case reset => exact fun s _ => .of_empty rfl rfl
  all_goals
    intros
    rename_i hs
    exact hs.same (by simp)

/-! ## The receive buffer (R178) -/

/-- Raising a class leaves the messages held and the reception. -/
@[simp] theorem raise_reception (l : Link) (c : FlagClass) :
    (l.raise c).buffer = l.buffer ∧ (l.raise c).receiver = l.receiver := by
  unfold Link.raise
  split <;> exact ⟨rfl, rfl⟩

/-- The link's part in a halt. -/
theorem halt_link_eq (s : State) (r : HaltReason) : (s.halt r).link = s.link.raise .halt := rfl

/-- The link's part in a spoil. -/
theorem spoil_link_eq (s : State) (c : SpoilCause) (l : Nat) (ch : Option Channel) :
    (s.spoil c l ch).link = s.link.raise .halt := rfl

/-- Messages held and reception are left as they were. -/
def SameReception (s t : State) : Prop := t.link.buffer = s.link.buffer ∧ t.link.receiver = s.link.receiver

theorem SameReception.of_link (h : t.link = s.link) : SameReception s t := by rw [SameReception, h]; exact ⟨rfl, rfl⟩

theorem SameReception.of_raise {c : FlagClass} (h : t.link = s.link.raise c) : SameReception s t := by
  rw [SameReception, h]; exact raise_reception _ _

theorem SameReception.trans {u : State} (h : SameReception s t) (h' : SameReception t u) : SameReception s u :=
  ⟨h'.1.trans h.1, h'.2.trans h.2⟩

theorem trimUpdate_reception (s : State) : SameReception s s.trimUpdate := by
  obtain ⟨-, hquiet, hlimited, -⟩ := trimUpdate_trimmed s
  by_cases h : s.trimLimits
  · exact .of_raise (hlimited h)
  · exact .of_link (hquiet h)

theorem setMonitorFlags_reception (s : State) (ch : Channel) (f : MonitorFlags) :
    SameReception s (s.setMonitorFlags ch f) := by
  simp only [State.setMonitorFlags]
  split
  · exact .of_link rfl
  · exact .of_raise rfl

theorem takeReading_reception (s : State) (p : PowerTargets) (ch : Channel) (ones : Option Nat) :
    SameReception s (s.takeReading p ch ones) := by
  simp only [State.takeReading]
  split
  · split
    · exact setMonitorFlags_reception (s.setChannel ch _) ch _
    · exact .of_link rfl
  · exact .of_link rfl

theorem setLevels_reception (s : State) (l : Lines) : SameReception s (s.setLevels l) := by
  unfold State.setLevels
  split
  · exact .of_link rfl
  · exact .of_raise rfl

theorem answer_reception (s : State) (r : Reply) : SameReception s (s.answer r) := ⟨rfl, rfl⟩

theorem nextPullDown_reception (s : State) (x : Series) : SameReception s (s.nextPullDown x) := by
  unfold State.nextPullDown
  split <;> exact ⟨rfl, rfl⟩

theorem seriesRegistered_reception (s : State) : SameReception s s.seriesRegistered := by
  unfold State.seriesRegistered
  split
  · exact ⟨rfl, rfl⟩
  · split
    · exact ⟨rfl, rfl⟩
    · exact nextPullDown_reception ..

theorem endSeries_reception (s : State) (x : Option Series) : SameReception s (s.endSeries x) := by
  unfold State.endSeries
  split <;> exact ⟨rfl, rfl⟩

theorem writeComplete_reception (s : State) : SameReception s (writeComplete s) := by
  unfold writeComplete
  split
  · refine SameReception.trans ?_ (.of_link (State.prefetch_frame _).2.1)
    unfold State.noteWritten
    split <;> exact ⟨rfl, rfl⟩
  all_goals exact ⟨rfl, rfl⟩

/-- R186: a class that is disabled is no matter of reception. -/
theorem setMask_reception (s : State) (m : NoticeMask) :
    SameReception s { s with link := s.link.setMask m } := by
  have drops : ∀ (l : Link) c, (l.dropDisabled c).buffer = l.buffer ∧ (l.dropDisabled c).receiver = l.receiver := by
    intro l c
    unfold Link.dropDisabled
    split <;> exact ⟨rfl, rfl⟩
  simp [SameReception, Link.setMask, drops]

theorem startTransmission_reception (s : State) (hrdy : Bool) : SameReception s (s.startTransmission hrdy) := by
  simp only [State.startTransmission, State.choose]
  split
  · split <;> exact ⟨rfl, rfl⟩
  · exact ⟨rfl, rfl⟩

/-- The places taken rest on the messages held and on whether a message is in reception. -/
theorem PlacesBounded.same (hs : PlacesBounded s) (h : SameReception s t) : PlacesBounded t := by
  rw [PlacesBounded, Link.places, h.1, h.2]; exact hs

theorem PlacesBounded.same_link (hs : PlacesBounded s) (h : t.link = s.link) : PlacesBounded t := hs.same (.of_link h)

/-- R180: taking a message frees its place. -/
theorem takeNext_places (l : Link) : l.takeNext.places ≤ l.places := by
  unfold Link.takeNext
  split
  · rename_i hbuffer
    simp only [Link.places, hbuffer, List.length_cons]
    omega
  all_goals exact Nat.le_refl _

/-- R178: a message held takes one place more, at most. -/
theorem deliver_places (l : Link) (m : Message) : (l.deliver m).places ≤ l.places + 1 := by
  refine (takeNext_places _).trans ?_
  simp only [Link.places, List.length_append, List.length_singleton]
  omega

/-- R178: a message arrives only where a place is free. -/
theorem PlacesBounded.arrive (hs : PlacesBounded s) (m : Message) : PlacesBounded (s.arrive m) := by
  unfold State.arrive
  split
  · exact hs
  · rename_i hroom
    split
    · exact hs
    · have hdelivered := deliver_places s.link m
      have hplace : s.link.places < 2 := Nat.lt_of_not_le hroom
      exact hdelivered.trans hplace

/-- A reception that goes on takes the place that it had. -/
theorem PlacesBounded.setReceiver (hs : PlacesBounded s) (hr : s.link.receiver ≠ .hunting) (r : Receiver) :
    PlacesBounded (s.setReceiver r) := by
  have hplaces : s.link.buffer.length + 1 ≤ 2 := by
    have h := hs
    rwa [PlacesBounded, Link.places, if_neg hr] at h
  have hone : (if r = .hunting then 0 else 1) ≤ 1 := by
    by_cases h : r = .hunting
    · rw [if_pos h]; decide
    · rw [if_neg h]
  exact (Nat.add_le_add_left hone _).trans hplaces

/-- R177, R178: a byte received. -/
theorem PlacesBounded.receiveByte (hs : PlacesBounded s) (b : Byte) : PlacesBounded (s.receiveByte b) := by
  unfold State.receiveByte
  split
  · rename_i hhunting
    split
    · exact hs
    · split
      · exact hs
      · rename_i hroom
        have hplace : s.link.places < 2 := Nat.lt_of_not_le hroom
        rw [Link.places, if_pos hhunting] at hplace
        simp only [PlacesBounded, Link.places, State.setReceiver, reduceCtorEq, if_false]
        omega
  · exact hs.setReceiver (by simp [*]) _
  · exact hs.setReceiver (by simp [*]) _
  · exact hs.setReceiver (by simp [*]) _
  · dsimp only
    split
    · exact hs.setReceiver (by simp [*]) .hunting
    · exact hs.setReceiver (by simp [*]) _
  · exact hs.setReceiver (by simp [*]) _
  · exact hs.setReceiver (by simp [*]) _
  · rename_i hcheck
    dsimp only
    split
    · -- the message takes the place of its reception
      refine (deliver_places _ _).trans ?_
      have hplaces := hs
      rw [PlacesBounded, Link.places, if_neg (by simp [hcheck])] at hplaces
      simpa [Link.places, State.setReceiver] using hplaces
    · exact hs.setReceiver (by simp [*]) .hunting

/-- R180, R185: the end of a message takes the next request, or leaves the reception alone. -/
theorem PlacesBounded.endTransmission (hs : PlacesBounded s) (x : Transmission) :
    PlacesBounded (s.endTransmission x) := by
  have hsoft : ∀ u : State, u.softReset.link.places ≤ u.link.places := by
    intro u
    have hreception : SameReception u u.softResetRun := by
      unfold State.softResetRun
      split
      · exact .of_raise (spoil_link_eq ..)
      · exact .of_raise (halt_link_eq ..)
      · exact .of_raise (halt_link_eq ..)
    have hreceiver : u.softReset.link.receiver = u.link.receiver := hreception.2
    have hbuffer : u.softReset.link.buffer = [] := rfl
    rw [Link.places, Link.places, hreceiver, hbuffer]
    exact Nat.add_le_add_right (Nat.zero_le _) _
  simp only [State.endTransmission]
  split
  · simp only [State.endReply]
    refine (takeNext_places _).trans ?_
    split
    · exact (hsoft _).trans hs
    · exact hs
  all_goals exact hs

/-- The bound through the frame cycle. -/
theorem placesBounded_cycle : CycleKeeps (fun _ => True) PlacesBounded := by
  constructor
  case running => trivial
  case active => exact fun _ _ _ => trivial
  case halt => exact fun s r hs => hs.same (.of_raise (halt_link_eq s r))
  case spoil => exact fun s c l ch _ hs => hs.same (.of_raise (spoil_link_eq s c l ch))
  case trimUpdate => exact fun s hs => hs.same (trimUpdate_reception s)
  case suspectEnd =>
    exact fun s ch _ hs => hs.same (.of_raise (c := .halt) (by rw [State.suspectEnd, halt_link_eq]; simp))
  all_goals
    intros
    rename_i hs
    exact hs.same_link (by simp)

/-- Every piece of work keeps the bound. -/
theorem placesBounded_keeps : Keeps PlacesBounded := by
  have K := placesBounded_cycle
  constructor
  case answer => exact fun s r _ hs => hs.same (answer_reception s r)
  case arrive => exact fun s m hs => hs.arrive m
  case receiveByte => exact fun s b hs => hs.receiveByte b
  case gap =>
    intro s hs
    refine Nat.le_trans ?_ hs
    simp [Link.places, State.setLinkFlag, State.setReceiver]
  case transmit => exact fun s h hs => hs.same (startTransmission_reception s h)
  case endTransmission => exact fun s x _ _ hs => hs.endTransmission x
  case raise => exact fun s c hs => hs.same (.of_raise rfl)
  case takeEntries => exact fun s n _ hs => hs.same ⟨rfl, rfl⟩
  case clearReported => exact fun s hs => hs.same ⟨rfl, rfl⟩
  case setMask => exact fun s m hs => hs.same (setMask_reception s m)
  case acceptJob => exact fun s p _ _ hs => hs.same ⟨rfl, rfl⟩
  case claimWrite => exact fun s x line count words _ _ hs => hs.same ⟨rfl, rfl⟩
  case between => exact fun s h0 hr hs => K.between h0 hr hs
  case passBlank => exact fun s h0 hs => K.passBlank h0 hs
  case cleanEnd => exact fun s h0 hx hs => K.cleanEnd h0 hx hs
  case halt => exact K.halt
  case spoil => exact K.spoil
  case advance => exact fun s count _ _ hs => hs.same (nextPullDown_reception s.await _)
  case registered => exact fun s _ _ hs => hs.same (seriesRegistered_reception _)
  case fault => exact fun s c hs => K.fault (hs.same (endSeries_reception _ _))
  case setLevels => exact fun s l _ hs => hs.same (setLevels_reception s l)
  case interlockOpens => exact fun s l _ hs => K.interlockOpens (hs.same (setLevels_reception s l))
  case laserReady => exact fun s a b hs => K.laserReady (fun s hs => hs.same_link (by simp)) (hs.same_link rfl)
  case clockLost =>
    exact fun s ch hs => K.clockLost (hs.same (setMonitorFlags_reception (s.setChannel ch _) ch _))
      (fun _ _ _ hs => hs.same_link rfl) hs
  case reading =>
    exact fun s p o _ hs => hs.same (((takeReading_reception s p .red o.red).trans
      (takeReading_reception _ p .green o.green)).trans (takeReading_reception _ p .blue o.blue))
  case writeComplete => exact fun s hs => hs.same (writeComplete_reception s)
  case reset => exact fun s _ => by simp [PlacesBounded, Link.places, State.afterReset, Link.reset]
  case release => exact fun s r _ hs => hs.same ⟨rfl, rfl⟩
  all_goals
    intros
    rename_i hs
    exact hs.same_link (by simp)

end Buffers

/-! ## The obligation -/

/-- Settles O60: each of the three buffers changes in few pieces of work, and every one keeps its order or its bound. -/
theorem stepKeepsBuffersInOrder : Obligations.StepKeepsBuffersInOrder :=
  ⟨fun _ _ hs h => storeCanonical_keeps.step (fun _ _ hs => hs.congr rfl) hs h,
    fun _ _ hs h => queueInOrder_keeps.step (fun _ _ hs => hs.same rfl) hs h,
    fun _ _ hs h => placesBounded_keeps.step (fun _ _ hs => hs.same_link rfl) hs h⟩

end Sys2Proof.Machine
end

section
/-! Defined planes apart and within the frame store, and no fill mark above its limit: what each piece of work does to
the plane tables and to the work outside the link. -/

namespace Sys2Proof.Machine

section Planes

variable {s t : State}

/-! ## Where the planes lie (R26, R28) -/

/-- What the number of a descriptor, its base slot, limit and width are. -/
def placeOf (e : Nat × Plane) : Nat × Nat × Nat × Nat := (e.1, e.2.base, e.2.limit, e.2.width)

/-- Planes rest where they are: use counts and fill marks alone change. -/
def SamePlaces (a b : Table Plane) : Prop := b.map placeOf = a.map placeOf

theorem SamePlaces.modify (a : Table Plane) (k : Nat) {f : Plane → Plane}
    (hf : ∀ p, (f p).base = p.base ∧ (f p).limit = p.limit ∧ (f p).width = p.width) :
    SamePlaces a (Table.modify a k f) := by
  simp only [SamePlaces, Table.modify, List.map_map]
  refine List.map_congr_left fun e _ => ?_
  obtain ⟨hbase, hlimit, hwidth⟩ := hf e.2
  simp only [Function.comp_apply, placeOf]
  split
  · rw [hbase, hlimit, hwidth]
  · rfl

theorem SamePlaces.usePlanes (f : Nat → Nat) (sels : List Selector) (a : Table Plane) :
    SamePlaces a (usePlanes f sels a) := by
  induction sels generalizing a with
  | nil => rfl
  | cons sel sels ih =>
    exact (ih _).trans (SamePlaces.modify a sel.wire (f := fun p => { p with use := f p.use }) fun _ => ⟨rfl, rfl, rfl⟩)

/-- In canonical form, a value put at a number that holds one changes that value. -/
theorem Table.put_eq_modify {α : Type} {a : Table α} (ha : Table.wf a) {k : Nat} {v : α} (h : Table.get a k = some v)
    (x : α) : Table.put a k x = Table.modify a k fun _ => x := by
  induction a with
  | nil => cases h
  | cons e rest ih =>
    obtain ⟨n, y⟩ := e
    obtain ⟨hrising, hrest⟩ := List.pairwise_cons.1 ha
    by_cases hk : n = k
    · -- the number is the first: no later one is listed under it
      subst hk
      have hlater : Table.modify rest n (fun _ => x) = rest := by
        refine (List.map_congr_left fun e he => ?_).trans (List.map_id _)
        rw [if_neg (Nat.ne_of_gt (hrising e he))]
        rfl
      have hhead : Table.modify ((n, y) :: rest) n (fun _ => x) = (n, x) :: Table.modify rest n fun _ => x := by
        simp [Table.modify]
      rw [hhead, hlater]
      simp [Table.put]
    · rw [Table.get, if_neg hk] at h
      have hbelow : n < k := by
        have := hrising _ (Table.mem_of_get h)
        exact this
      have hhead : Table.modify ((n, y) :: rest) k (fun _ => x) = (n, y) :: Table.modify rest k fun _ => x := by
        simp [Table.modify, hk]
      rw [hhead, Table.put, if_neg (Nat.not_lt_of_gt hbelow), if_neg (Ne.symm hk), ih hrest h]

/-- R28 on the table of planes. -/
def PlanesApart (a : Table Plane) : Prop :=
  (a.Pairwise fun x y => x.2.disjoint y.2) ∧
  (∀ e ∈ a, 1 ≤ e.2.limit ∧ e.2.limit ≤ 4096 ∧ e.2.base + e.2.limit ≤ 65536) ∧
  (∀ e ∈ a, 256 ≤ e.2.width ∧ e.2.width ≤ 4096 ∧ e.2.width % 256 = 0) ∧ Table.wf a

theorem planesDisjoint_iff (s : State) : PlanesDisjoint s ↔ PlanesApart s.planes :=
  ⟨fun h => ⟨h.disjoint, h.inStore, h.width, h.sorted⟩, fun ⟨h1, h2, h3, h4⟩ => ⟨h1, h2, h3, h4⟩⟩

/-- What is said of planes apart is said of numbers and places alone. -/
theorem PlanesApart.samePlaces {a b : Table Plane} (ha : PlanesApart a) (h : SamePlaces a b) : PlanesApart b := by
  obtain ⟨hdisjoint, hstore, hwidth, hwf⟩ := ha
  have transfer : ∀ q : Nat × Nat × Nat × Nat → Prop, (∀ e ∈ a, q (placeOf e)) → ∀ e ∈ b, q (placeOf e) := by
    intro q hq e he
    have hmem : placeOf e ∈ a.map placeOf := h ▸ List.mem_map_of_mem he
    obtain ⟨o, ho, hplace⟩ := List.mem_map.1 hmem
    exact hplace ▸ hq o ho
  have pairs : ∀ q : Nat × Nat × Nat × Nat → Nat × Nat × Nat × Nat → Prop,
      (a.Pairwise fun x y => q (placeOf x) (placeOf y)) → b.Pairwise fun x y => q (placeOf x) (placeOf y) := by
    intro q hq
    rw [← List.pairwise_map (R := q)] at hq ⊢
    exact h ▸ hq
  exact ⟨pairs (fun x y => x.2.1 + x.2.2.1 ≤ y.2.1 ∨ y.2.1 + y.2.2.1 ≤ x.2.1) hdisjoint,
    transfer (fun x => 1 ≤ x.2.2.1 ∧ x.2.2.1 ≤ 4096 ∧ x.2.1 + x.2.2.1 ≤ 65536) hstore,
    transfer (fun x => 256 ≤ x.2.2.2 ∧ x.2.2.2 ≤ 4096 ∧ x.2.2.2 % 256 = 0) hwidth,
    pairs (fun x y => x.1 < y.1) hwf⟩

/-- Descriptors undefined leave the others apart. -/
theorem PlanesApart.filter {a : Table Plane} (ha : PlanesApart a) (p : Nat × Plane → Bool) :
    PlanesApart (a.filter p) := by
  obtain ⟨hdisjoint, hstore, hwidth, hwf⟩ := ha
  exact ⟨hdisjoint.filter p, fun e he => hstore e (List.mem_of_mem_filter he),
    fun e he => hwidth e (List.mem_of_mem_filter he), hwf.filter p⟩

/-- A number put into a table keeps a relation of all pairs that it has with every listed one. -/
theorem Table.pairwise_put {α : Type} {a : Table α} {R : Nat × α → Nat × α → Prop} (ha : a.Pairwise R) {k : Nat} {x : α}
    (hx : ∀ e ∈ a, R (k, x) e ∧ R e (k, x)) : (Table.put a k x).Pairwise R := by
  induction a with
  | nil => exact List.pairwise_singleton _ _
  | cons e rest ih =>
    obtain ⟨hfirst, hrest⟩ := List.pairwise_cons.1 ha
    have hxrest : ∀ e ∈ rest, R (k, x) e ∧ R e (k, x) := fun e he => hx e (List.mem_cons_of_mem _ he)
    unfold Table.put
    split
    · exact List.pairwise_cons.2 ⟨fun e he => (hx e he).1, ha⟩
    · split
      · exact List.pairwise_cons.2 ⟨fun e he => (hxrest e he).1, hrest⟩
      · refine List.pairwise_cons.2 ⟨fun o ho => ?_, ih hrest hxrest⟩
        rcases Table.mem_put ho with rfl | ho
        · exact (hx e (List.mem_cons_self ..)).2
        · exact hfirst o ho

/-- R29, R30: the checks of Define Plane keep the new plane apart from those defined. -/
theorem PlanesApart.define {x : Selector} {base limit width : Half} (ha : PlanesApart s.planes)
    (hc : passes (definePlaneChecks x base limit width s)) :
    PlanesApart (Table.put s.planes x.wire ⟨base.toNat, limit.toNat, width.toNat, 0, 0⟩) := by
  obtain ⟨hdisjoint, hstore, hwidth, hwf⟩ := ha
  have hlimit : ¬ (limit.toNat < 1 ∨ 4096 < limit.toNat) := of_decide_eq_false
    (hc (decide (limit.toNat < 1 ∨ 4096 < limit.toNat), .badValue, 2) (by simp [definePlaneChecks]))
  have hrange : ¬ (width.toNat < 256 ∨ 4096 < width.toNat ∨ width.toNat % 256 ≠ 0) := of_decide_eq_false
    (hc (decide (width.toNat < 256 ∨ 4096 < width.toNat ∨ width.toNat % 256 ≠ 0), .badValue, 3)
      (by simp [definePlaneChecks]))
  have hbounds : ¬ Config.lineSlots < base.toNat + limit.toNat := of_decide_eq_false
    (hc (decide (Config.lineSlots < base.toNat + limit.toNat), .bounds,
      base.toNat + limit.toNat - Config.lineSlots) (by simp [definePlaneChecks]))
  have hoverlap : (overlapping s.planes base.toNat limit.toNat).isSome = false :=
    hc ((overlapping s.planes base.toNat limit.toNat).isSome, .overlap,
      (overlapping s.planes base.toNat limit.toNat).getD 0) (by simp [definePlaneChecks])
  have hapart : ∀ e ∈ s.planes, ¬ (base.toNat < e.2.base + e.2.limit ∧ e.2.base < base.toNat + limit.toNat) := by
    simpa only [overlapping, Option.isSome_map, List.find?_isSome, Bool.eq_false_iff, ne_eq, decide_eq_true_eq,
      not_exists, not_and] using hoverlap
  have hslots : base.toNat + limit.toNat ≤ 65536 := Nat.le_of_not_lt hbounds
  refine ⟨Table.pairwise_put hdisjoint fun e he => ?_, fun e he => ?_, fun e he => ?_, Table.wf_put hwf _ _⟩
  · have hcut := hapart e he
    simp only [Plane.disjoint]
    omega
  · rcases Table.mem_put he with rfl | he
    · dsimp only; omega
    · exact hstore e he
  · rcases Table.mem_put he with rfl | he
    · dsimp only; omega
    · exact hwidth e he

theorem PlanesDisjoint.congr (hs : PlanesDisjoint s) (h : t.planes = s.planes) : PlanesDisjoint t := by
  rwa [planesDisjoint_iff, h, ← planesDisjoint_iff]

theorem PlanesDisjoint.samePlaces (hs : PlanesDisjoint s) {b : Table Plane} (hb : SamePlaces s.planes b)
    (h : t.planes = b) : PlanesDisjoint t :=
  (planesDisjoint_iff t).2 (h ▸ ((planesDisjoint_iff s).1 hs).samePlaces hb)

theorem PlanesDisjoint.filter (hs : PlanesDisjoint s) {p : Nat × Plane → Bool} (h : t.planes = s.planes.filter p) :
    PlanesDisjoint t :=
  (planesDisjoint_iff t).2 (h ▸ ((planesDisjoint_iff s).1 hs).filter p)

/-- R16, R17: the plane tables at the end of a job: its counts released, and freed REEL descriptors UNDEFINED. -/
theorem endJob_planes (o : JobOutcome) (j : Job) (s : State) :
    ∃ p : Nat × Plane → Bool, (s.endJob o j).planes = (usePlanes (· - 1) j.work.planes s.planes).filter p := by
  have hall : ∀ a : Table Plane, a = a.filter fun _ => true := fun a => by simp
  simp only [State.endJob, State.releasePlanes]
  split
  · split
    · exact ⟨_, rfl⟩
    · exact ⟨_, hall _⟩
  · exact ⟨_, hall _⟩

theorem PlanesDisjoint.endJob (hs : PlanesDisjoint s) (o : JobOutcome) (j : Job) : PlanesDisjoint (s.endJob o j) := by
  obtain ⟨p, hp⟩ := endJob_planes o j s
  have hused : PlanesDisjoint { s with planes := usePlanes (· - 1) j.work.planes s.planes } :=
    hs.samePlaces (SamePlaces.usePlanes (· - 1) j.work.planes _) rfl
  exact hused.filter hp

/-- R38: a fill mark that rises leaves the plane where it is. -/
theorem PlanesDisjoint.noteWritten (hs : PlanesDisjoint s) (x : Selector) : PlanesDisjoint (s.noteWritten x) := by
  unfold State.noteWritten
  split
  · rename_i p hp
    have hput := Table.put_eq_modify hs.sorted hp { p with fill := p.fill + 1 }
    have hplace : Table.modify s.planes x.wire (fun _ => { p with fill := p.fill + 1 }) =
        Table.modify s.planes x.wire fun q => { q with fill := p.fill + 1, use := p.use } := by
      refine List.map_congr_left fun e he => ?_
      split
      · rename_i hnum
        have hsame := Table.get_of_mem hs.sorted he
        rw [hnum, hp] at hsame
        cases hsame
        rfl
      · rfl
    refine hs.samePlaces (SamePlaces.modify s.planes x.wire
      (f := fun q => { q with fill := p.fill + 1, use := p.use }) fun _ => ⟨rfl, rfl, rfl⟩) ?_
    simp [hput, hplace]
  · exact hs.congr (by simp)

/-- The planes through the frame cycle. -/
theorem planesDisjoint_cycle : CycleKeeps (fun _ => True) PlanesDisjoint := by
  constructor
  case running => trivial
  case active => exact fun _ _ _ => trivial
  case endJob => exact fun s o j _ hs => hs.endJob o j
  case suspectEnd =>
    intro s ch _ hs
    have hdone : PlanesDisjoint (s.logSuspect ch).completeHead :=
      completeHead_keeps (P := PlanesDisjoint) (fun _ _ _ _ hu => hu.endJob _ _) (hs.congr (by simp))
    exact hdone.congr (by simp [State.suspectEnd])
  all_goals
    intros
    rename_i hs
    exact hs.congr (by simp)

/-- Every piece of work keeps the planes apart. -/
theorem planesDisjoint_keeps : Keeps PlanesDisjoint := by
  have K := planesDisjoint_cycle
  constructor
  case acceptJob =>
    exact fun s p _ _ hs => hs.samePlaces (SamePlaces.usePlanes (· + 1) (queuedJob p).work.planes _) rfl
  case cancel => exact fun s tag j _ hs => hs.endJob _ _
  case definePlane =>
    exact fun s sel x base limit width _ _ hc hs => (planesDisjoint_iff _).2 (((planesDisjoint_iff s).1 hs).define hc)
  case undefinePlane => exact fun s x _ _ hs => hs.filter rfl
  case rewindPlane => exact fun s x _ _ hs => hs.samePlaces (SamePlaces.modify s.planes x.wire
    (f := fun p => { p with fill := 0 }) fun _ => ⟨rfl, rfl, rfl⟩) rfl
  case between => exact fun s h0 hr hs => K.between h0 hr hs
  case passBlank => exact fun s h0 hs => K.passBlank h0 hs
  case cleanEnd => exact fun s h0 hx hs => K.cleanEnd h0 hx hs
  case openReel => exact fun s p _ hs => hs.filter rfl
  case closeReel =>
    intro s _ _ hs
    have hflushed := (flush_keeps (P := PlanesDisjoint) (fun _ _ _ _ hu => hu.endJob _ _) hs).1
    exact hflushed.filter rfl
  case interlockOpens => exact fun s l _ hs => K.interlockOpens (hs.congr (by simp))
  case laserReady => exact fun s a b hs => K.laserReady (fun s hs => hs.congr (by simp)) (hs.congr rfl)
  case clockLost => exact fun s ch hs => K.clockLost (hs.congr (by simp)) (fun _ _ _ hs => hs.congr rfl) hs
  case writeComplete =>
    intro s hs
    unfold writeComplete
    split
    · rename_i c _
      have hwritten : PlanesDisjoint { s with
          arbiter := { s.arbiter with access := none, lastServed := .planeWriter }
          store := Memory.writeLine s.store c.slot c.words } := hs.congr rfl
      exact (hwritten.noteWritten c.sel).congr (by simp)
    all_goals exact hs
  case endTransmission =>
    intro s x h0 _ hs
    refine endTransmission_keeps h0 (fun _ _ hs => hs.congr rfl) (fun _ hs => hs.congr rfl)
      (fun _ hs => hs.congr rfl) (fun u _ hu => ?_) hs
    have hdropped : u.softReset.planes = u.planes.map fun e => (e.1, { e.2 with use := 0 }) := by
      simp [State.softReset, State.softResetLink, State.softResetBlocks, State.dropJobs]
    refine hu.samePlaces ?_ hdropped
    rw [SamePlaces, List.map_map]
    rfl
  case reset => exact fun s _ => ⟨.nil, by simp [State.afterReset], by simp [State.afterReset], .nil⟩
  all_goals
    intros
    rename_i hs
    exact hs.congr (by simp)

end Planes

end Sys2Proof.Machine
end

section
/-! No fill mark above its limit, with the work outside the link that it rests on: the write in flight, the series in
flight, and the reply in transmission. -/

namespace Sys2Proof.Machine

section Fills

variable {s t u : State}

/-! ## The fill marks (R26, R34) -/

/-- Every plane that `b` defines has the limit and the fill mark that it has in `a`, and `b` is in canonical form where
`a` is. -/
structure SameFills (a b : Table Plane) : Prop where
  fill : ∀ k p, Table.get b k = some p → ∃ q, Table.get a k = some q ∧ p.fill = q.fill ∧ p.limit = q.limit
  wf : Table.wf a → Table.wf b

theorem SameFills.refl (a : Table Plane) : SameFills a a := ⟨fun _ p hp => ⟨p, hp, rfl, rfl⟩, id⟩

theorem SameFills.of_eq {a b : Table Plane} (h : b = a) : SameFills a b := h ▸ .refl a

theorem SameFills.trans {a b c : Table Plane} (h : SameFills a b) (h' : SameFills b c) : SameFills a c := by
  refine ⟨fun k p hp => ?_, fun ha => h'.wf (h.wf ha)⟩
  obtain ⟨q, hq, hfill, hlimit⟩ := h'.fill k p hp
  obtain ⟨o, ho, hfill', hlimit'⟩ := h.fill k q hq
  exact ⟨o, ho, hfill.trans hfill', hlimit.trans hlimit'⟩

theorem SameFills.modify (a : Table Plane) (k : Nat) {f : Plane → Plane}
    (hf : ∀ p, (f p).fill = p.fill ∧ (f p).limit = p.limit) : SameFills a (Table.modify a k f) := by
  refine ⟨fun n p hp => ?_, fun ha => Table.wf_modify ha k f⟩
  rw [Table.get_modify] at hp
  split at hp
  · obtain ⟨q, hq, rfl⟩ := Option.map_eq_some_iff.1 hp
    exact ⟨q, hq, hf q⟩
  · exact ⟨p, hp, rfl, rfl⟩

theorem SameFills.usePlanes (f : Nat → Nat) (sels : List Selector) (a : Table Plane) :
    SameFills a (usePlanes f sels a) := by
  induction sels generalizing a with
  | nil => exact .refl a
  | cons sel sels ih =>
    exact (SameFills.modify a sel.wire (f := fun p => { p with use := f p.use }) fun _ => ⟨rfl, rfl⟩).trans (ih _)

/-- In canonical form a table lists every number at most once, so that a number lists what a part of the table does. -/
theorem Table.get_of_sublist {a b : Table Plane} (hsub : b.Sublist a) (ha : Table.wf a) {k : Nat} {p : Plane}
    (h : Table.get b k = some p) : Table.get a k = some p :=
  Table.get_of_mem ha (e := (k, p)) (hsub.subset (Table.mem_of_get h))

/-- The bounds of the fill marks of a table. -/
def FillsIn (a : Table Plane) : Prop := ∀ k p, Table.get a k = some p → p.fill ≤ p.limit

theorem FillsBounded.fillsIn (hs : FillsBounded s) : FillsIn s.planes :=
  fun _ _ hp => hs.fill _ (Table.mem_of_get hp)

theorem FillsIn.fill {a : Table Plane} (h : FillsIn a) (ha : Table.wf a) : ∀ e ∈ a, e.2.fill ≤ e.2.limit :=
  fun e he => h e.1 e.2 (Table.get_of_mem ha he)

/-- Descriptors undefined leave the others as they are. -/
theorem SameFills.filter {a : Table Plane} (ha : Table.wf a) (p : Nat × Plane → Bool) : SameFills a (a.filter p) :=
  ⟨fun _ q hq => ⟨q, Table.get_of_sublist List.filter_sublist ha hq, rfl, rfl⟩, fun h => h.filter p⟩

/-! ## The work outside the link (R180, R183) -/

/-- What the fill marks ask of current request, transmission, series and arbiter is kept. -/
structure SameWork (s t : State) : Prop where
  current : t.link.current = s.link.current
  reply : ∀ r m, t.link.transmitter = some ⟨.reply r, m⟩ → ∃ r' m', s.link.transmitter = some ⟨.reply r', m'⟩
  series : t.transport.series.isSome → s.transport.series.isSome
  writing : ∀ w, t.writing w → s.writing w
  one : (∀ w, s.arbiter.access = some (.write w) → s.arbiter.writeWaiting = none) →
    ∀ w, t.arbiter.access = some (.write w) → t.arbiter.writeWaiting = none

theorem SameWork.of_link (hcurrent : t.link.current = s.link.current)
    (hreply : ∀ r m, t.link.transmitter = some ⟨.reply r, m⟩ → s.link.transmitter = some ⟨.reply r, m⟩)
    (hseries : t.transport.series = s.transport.series) (harbiter : t.arbiter = s.arbiter) : SameWork s t :=
  ⟨hcurrent, fun r m h => ⟨r, m, hreply r m h⟩, by rw [hseries]; exact id,
    by simp only [State.writing, harbiter]; exact fun _ => id, by rw [harbiter]; exact id⟩

theorem SameWork.of_eq (hlink : t.link = s.link) (hseries : t.transport.series = s.transport.series)
    (harbiter : t.arbiter = s.arbiter) : SameWork s t :=
  .of_link (by rw [hlink]) (by rw [hlink]; exact fun _ _ => id) hseries harbiter

theorem SameWork.trans (h : SameWork s t) (h' : SameWork t u) : SameWork s u :=
  ⟨h'.current.trans h.current,
    fun r m hu => by obtain ⟨r', m', ht⟩ := h'.reply r m hu; exact h.reply r' m' ht,
    fun hu => h.series (h'.series hu), fun w hu => h.writing w (h'.writing w hu), fun hs => h'.one (h.one hs)⟩

/-- R185: raising a class turns no notice into a reply. -/
theorem raise_reply {c : FlagClass} {l : Link} {r : Reply} {m : Message}
    (h : (l.raise c).transmitter = some ⟨.reply r, m⟩) : l.transmitter = some ⟨.reply r, m⟩ := by
  unfold Link.raise at h
  split at h
  · obtain ⟨x, hx, hnoted⟩ := Option.map_eq_some_iff.1 h
    rw [hx]
    unfold Transmission.noteRaise at hnoted
    split at hnoted
    · cases hnoted
    all_goals exact congrArg some hnoted
  · exact h

/-- A state whose link differs by a class raised. -/
theorem SameWork.of_raise {c : FlagClass} (hlink : t.link = s.link.raise c)
    (hseries : t.transport.series = s.transport.series) (harbiter : t.arbiter = s.arbiter) : SameWork s t := by
  refine .of_link (by rw [hlink]; exact Keeps.raise_current _ _) (fun r m h => ?_) hseries harbiter
  rw [hlink] at h
  exact raise_reply h

/-- R43: a read claim that is withdrawn leaves the writes. -/
theorem SameWork.withdraw : SameWork s { s with arbiter := s.arbiter.withdrawRead } := by
  have haccess : ∀ w, s.arbiter.withdrawRead.access = some (.write w) → s.arbiter.access = some (.write w) := by
    intro w h
    unfold Arbiter.withdrawRead at h
    dsimp only at h
    split at h
    · cases h
    · rename_i c hc
      rw [hc, ← h]
    · cases h
  exact ⟨rfl, fun r m h => ⟨r, m, h⟩, id, fun w h => h.imp id (haccess w), fun hs w h => hs w (haccess w h)⟩

/-- R41, R42: the arbiter's choice serves a write that waits, and makes none. -/
theorem SameWork.serve (sets : Nat) : SameWork s { s with arbiter := s.arbiter.serve sets } := by
  refine ⟨rfl, fun r m h => ⟨r, m, h⟩, id, ?_, ?_⟩ <;> simp only [State.writing, Arbiter.serve]
  · intro w
    split <;> try exact id
    all_goals rename_i ha hr hw
    · simp [hw]
    · simp [ha, hw]
    · split
      · simp [ha, hw]
      · split <;> simp [ha, hw]
  · intro hone w
    split <;> try exact hone w
    all_goals rename_i ha hr hw
    · simp
    · simp
    · split
      · simp
      · split <;> simp

/-- R93, R41: the prefetcher claims reads. -/
theorem SameWork.prefetch : SameWork s s.prefetch := by
  have hbegun : SameWork s s.beginSet := by
    unfold State.beginSet
    split
    · exact .of_eq rfl rfl rfl
    · exact ⟨rfl, fun r m h => ⟨r, m, h⟩, id, fun _ => id, id⟩
  exact hbegun.trans (SameWork.serve _)

theorem SameWork.layDown : SameWork s s.layDown := SameWork.withdraw.trans (.of_eq rfl rfl rfl)

theorem SameWork.halt (r : HaltReason) : SameWork s (s.halt r) :=
  SameWork.withdraw.trans (.of_raise (halt_link_eq s r) rfl rfl)

theorem SameWork.spoil (c : SpoilCause) (l : Nat) (ch : Option Channel) : SameWork s (s.spoil c l ch) :=
  SameWork.withdraw.trans (.of_raise (spoil_link_eq s c l ch) rfl rfl)

theorem SameWork.trimUpdate : SameWork s s.trimUpdate := by
  obtain ⟨-, hquiet, hlimited, -⟩ := trimUpdate_trimmed s
  by_cases h : s.trimLimits
  · exact .of_raise (hlimited h) (by simp) (by simp)
  · exact .of_eq (hquiet h) (by simp) (by simp)

theorem SameWork.setMonitorFlags (ch : Channel) (f : MonitorFlags) : SameWork s (s.setMonitorFlags ch f) := by
  simp only [State.setMonitorFlags]
  split
  · exact .of_eq rfl rfl rfl
  · exact .of_raise rfl rfl rfl

theorem SameWork.takeReading (p : PowerTargets) (ch : Channel) (ones : Option Nat) :
    SameWork s (s.takeReading p ch ones) := by
  simp only [State.takeReading]
  split
  · split
    · refine SameWork.trans ?_ (SameWork.setMonitorFlags ch _)
      exact .of_eq rfl rfl rfl
    · exact .of_eq rfl rfl rfl
  · exact .of_eq rfl rfl rfl

theorem SameWork.setLevels (l : Lines) : SameWork s (s.setLevels l) := by
  unfold State.setLevels
  split
  · exact .of_eq rfl rfl rfl
  · exact .of_raise rfl rfl rfl

/-! ## What holds of the fill marks -/

/-- Work, limits and fill marks that are kept keep the bounds. -/
theorem FillsBounded.same (hs : FillsBounded s) (hwork : SameWork s t) (hfills : SameFills s.planes t.planes) :
    FillsBounded t := by
  have hsorted := hfills.wf hs.sorted
  have hfill : FillsIn t.planes := by
    intro k p hp
    obtain ⟨q, hq, hf, hl⟩ := hfills.fill k p hp
    rw [hf, hl]
    exact hs.fillsIn k q hq
  refine ⟨⟨fun w hw => ?_, fun hser => ?_, fun hser w hw => ?_, hwork.one hs.one, fun r m h => ?_⟩, hfill.fill hsorted,
    fun w hw p hp => ?_, hsorted⟩
  · rw [hwork.current]; exact hs.write w (hwork.writing w hw)
  · rw [hwork.current]; exact hs.series (hwork.series hser)
  · exact hs.exclusive (hwork.series hser) w (hwork.writing w hw)
  · obtain ⟨r', m', hr⟩ := hwork.reply r m h
    rw [hwork.current]
    exact hs.reply r' m' hr
  · obtain ⟨q, hq, hf, hl⟩ := hfills.fill _ p hp
    rw [hf, hl]
    exact hs.room w (hwork.writing w hw) q hq

/-- The bounds where the planes are as they were. -/
theorem FillsBounded.work (hs : FillsBounded s) (hwork : SameWork s t) (hplanes : t.planes = s.planes) :
    FillsBounded t := hs.same hwork (.of_eq hplanes)

/-- The bounds where only state that they do not rest on has changed. -/
theorem FillsBounded.congr (hs : FillsBounded s) (hlink : t.link = s.link)
    (hseries : t.transport.series = s.transport.series) (harbiter : t.arbiter = s.arbiter)
    (hplanes : t.planes = s.planes) : FillsBounded t := hs.work (.of_eq hlink hseries harbiter) hplanes

/-- No work outside the link is under way, and no reply in transmission: the current request is free to change. -/
structure Quiet (s : State) : Prop where
  writing : ∀ w, ¬ s.writing w
  series : s.transport.series = none
  reply : ∀ r m, s.link.transmitter ≠ some ⟨.reply r, m⟩

/-- Where no work is under way the fill marks alone are asked for. -/
theorem FillsBounded.of_quiet (hq : Quiet t) (hfill : FillsIn t.planes) (hwf : Table.wf t.planes) : FillsBounded t :=
  ⟨⟨fun w hw => absurd hw (hq.writing w), by simp [hq.series], by simp [hq.series],
    fun w hw => absurd (.inr hw) (hq.writing w), fun r m h => absurd h (hq.reply r m)⟩, hfill.fill hwf,
    fun w hw => absurd hw (hq.writing w), hwf⟩

/-- Work outside the link is under way only while the current request waits for it. -/
theorem FillsBounded.idle (hs : FillsBounded s) (hwait : ∀ m, s.link.current ≠ some ⟨m, .waiting⟩) :
    (∀ w, ¬ s.writing w) ∧ s.transport.series = none := by
  refine ⟨fun w hw => ?_, ?_⟩
  · obtain ⟨m, hm⟩ := hs.write w hw
    exact hwait m hm
  · cases hser : s.transport.series with
    | none => rfl
    | some x =>
      obtain ⟨m, hm⟩ := hs.series (by simp [hser])
      exact absurd hm (hwait m)

/-- A request that does not wait and whose reply is not being sent leaves no work under way. -/
theorem FillsBounded.quiet (hs : FillsBounded s) (hwait : ∀ m, s.link.current ≠ some ⟨m, .waiting⟩)
    (hsend : ∀ m, s.link.current ≠ some ⟨m, .replySending⟩) : Quiet s := by
  obtain ⟨hwriting, hseries⟩ := hs.idle hwait
  refine ⟨hwriting, hseries, fun r m h => ?_⟩
  obtain ⟨q, hq⟩ := hs.reply r m h
  exact hsend q hq

/-- R180: a request that is with its block leaves no work under way. -/
theorem FillsBounded.handed (hs : FillsBounded s) (hh : s.hasHanded) : Quiet s := by
  obtain ⟨m, hm⟩ := hh
  exact hs.quiet (by simp [hm]) (by simp [hm])

/-- With no work under way the current request may change, and the transmitter be set to anything but a reply. -/
theorem Quiet.left (hq : Quiet s) (hreply : ∀ r m, t.link.transmitter ≠ some ⟨.reply r, m⟩)
    (hseries : t.transport.series = s.transport.series) (harbiter : t.arbiter = s.arbiter) : Quiet t :=
  ⟨by simp only [State.writing, harbiter]; exact hq.writing, hseries.trans hq.series, hreply⟩

/-- R180: an answer to a request that is with its block. -/
theorem FillsBounded.answer (hs : FillsBounded s) (hh : s.hasHanded) (r : Reply) : FillsBounded (s.answer r) :=
  .of_quiet ((hs.handed hh).left (hs.handed hh).reply rfl rfl) hs.fillsIn hs.sorted

/-! ## The link (R178, R180, R184 to R186) -/

/-- R180: the taking of the next message. -/
theorem FillsBounded.takeNext (hs : FillsBounded s) : FillsBounded { s with link := s.link.takeNext } := by
  cases hc : s.link.current with
  | some c =>
    have hsame : s.link.takeNext = s.link := by unfold Link.takeNext; rw [hc]
    rw [hsame]; exact hs
  | none =>
    have htransmitter : s.link.takeNext.transmitter = s.link.transmitter := by
      unfold Link.takeNext
      split <;> rfl
    have hquiet := hs.quiet (by simp [hc]) (by simp [hc])
    exact .of_quiet (hquiet.left (by rw [htransmitter]; exact hquiet.reply) rfl rfl) hs.fillsIn hs.sorted

/-- R178: a message held. -/
theorem FillsBounded.deliver (hs : FillsBounded s) (m : Message) :
    FillsBounded { s with link := s.link.deliver m } := by
  have hheld : FillsBounded { s with link := { s.link with buffer := s.link.buffer ++ [m] } } :=
    hs.work (.of_link rfl (fun _ _ => id) rfl rfl) rfl
  exact hheld.takeNext

theorem FillsBounded.setLinkFlag (hs : FillsBounded s) (f : LinkFlag) : FillsBounded (s.setLinkFlag f) :=
  hs.work (.of_link rfl (fun _ _ => id) rfl rfl) rfl

theorem FillsBounded.setReceiver (hs : FillsBounded s) (r : Receiver) : FillsBounded (s.setReceiver r) :=
  hs.work (.of_link rfl (fun _ _ => id) rfl rfl) rfl

theorem FillsBounded.arrive (hs : FillsBounded s) (m : Message) : FillsBounded (s.arrive m) := by
  unfold State.arrive
  split
  · exact hs.setLinkFlag _
  · split
    · exact hs.setLinkFlag _
    · exact hs.deliver m

theorem FillsBounded.receiveByte (hs : FillsBounded s) (b : Byte) : FillsBounded (s.receiveByte b) := by
  unfold State.receiveByte
  split
  · split
    · exact hs
    · split
      · exact hs.setLinkFlag _
      · exact hs.setReceiver _
  · exact hs.setReceiver _
  · exact hs.setReceiver _
  · exact hs.setReceiver _
  · dsimp only
    split
    · exact (hs.setReceiver _).setLinkFlag _
    · exact hs.setReceiver _
  · exact hs.setReceiver _
  · exact hs.setReceiver _
  · dsimp only
    split
    · exact (hs.setReceiver .hunting).deliver _
    · exact (hs.setReceiver _).setLinkFlag _

/-- R184: no notice is a reply. -/
theorem firstNotice_reply (s : State) (r : Reply) (m : Message) : s.firstNotice ≠ some ⟨.reply r, m⟩ := by
  unfold State.firstNotice
  split
  · simp [State.flagNotice]
  · split
    · simp
    · split
      · simp
      · split
        · simp [State.flagNotice]
        · split
          · simp [State.flagNotice]
          · split
            · simp [State.flagNotice]
            · simp

/-- R184: the reply to the current request is sent as it is marked so; a notice is no reply. -/
theorem FillsBounded.choose (hs : FillsBounded s) : FillsBounded s.choose := by
  unfold State.choose
  split
  · rename_i m r hc
    have hquiet := hs.quiet (by simp [hc]) (by simp [hc])
    exact ⟨⟨fun w hw => absurd hw (hquiet.writing w), fun h => by simp [hquiet.series] at h,
      fun h => by simp [hquiet.series] at h, hs.one, fun _ _ _ => ⟨m, rfl⟩⟩, hs.fill,
      fun w hw => absurd hw (hquiet.writing w), hs.sorted⟩
  all_goals exact hs.work (.of_link rfl (fun r m h => absurd h (firstNotice_reply s r m)) rfl rfl) rfl

theorem FillsBounded.startTransmission (hs : FillsBounded s) (hrdy : Bool) :
    FillsBounded (s.startTransmission hrdy) := by
  have hready : FillsBounded { s with link := { s.link with hrdy := hrdy } } :=
    hs.work (.of_link rfl (fun _ _ => id) rfl rfl) rfl
  simp only [State.startTransmission]
  split
  · exact hready.choose
  · exact hready

/-- R186: a class that is disabled is no reply. -/
theorem lower_reply {c : FlagClass} {l : Link} {r : Reply} {m : Message}
    (h : (l.dropDisabled c).transmitter = some ⟨.reply r, m⟩) : l.transmitter = some ⟨.reply r, m⟩ := by
  unfold Link.dropDisabled at h
  split at h
  · exact h
  · obtain ⟨x, hx, hnoted⟩ := Option.map_eq_some_iff.1 h
    rw [hx]
    split at hnoted
    · cases hnoted
    all_goals exact congrArg some hnoted

theorem SameWork.setMask (m : NoticeMask) : SameWork s { s with link := s.link.setMask m } := by
  have hreply : ∀ r x, (s.link.setMask m).transmitter = some ⟨.reply r, x⟩ → s.link.transmitter = some ⟨.reply r, x⟩ := by
    intro r x h
    have hkept := lower_reply (lower_reply (lower_reply h))
    exact hkept
  refine .of_link ?_ hreply rfl rfl
  have drops : ∀ (l : Link) c, (l.dropDisabled c).current = l.current := by
    intro l c
    unfold Link.dropDisabled
    split <;> rfl
  simp [Link.setMask, drops]

/-- R173: the mark of an entry that is removed makes no reply. -/
theorem noteRemoval_reply {k : Nat} {l : SpoilLog} {x : Transmission} {r : Reply} {m : Message}
    (h : noteRemoval k l x = ⟨.reply r, m⟩) : x = ⟨.reply r, m⟩ := by
  unfold noteRemoval at h
  split at h
  · cases h
  all_goals exact h

theorem FillsBounded.takeEntries (hs : FillsBounded s) (hh : s.hasHanded) (n : Nat) :
    FillsBounded (s.takeEntries n) := by
  refine .of_quiet ((hs.handed hh).left (fun r m h => ?_) rfl rfl) hs.fillsIn hs.sorted
  obtain ⟨x, hx, hnoted⟩ := Option.map_eq_some_iff.1 h
  exact (hs.handed hh).reply r m (hx.trans (congrArg some (noteRemoval_reply hnoted)))

/-! ## The plane tables (R29 to R32, R36 to R38) -/

theorem FillsBounded.definePlane (hs : FillsBounded s) {x : Selector} {base limit width : Half}
    (hc : passes (definePlaneChecks x base limit width s)) :
    FillsBounded { s with
      planes := Table.put s.planes x.wire ⟨base.toNat, limit.toNat, width.toNat, 0, 0⟩ } := by
  have hlimit : ¬ (limit.toNat < 1 ∨ 4096 < limit.toNat) := of_decide_eq_false
    (hc (decide (limit.toNat < 1 ∨ 4096 < limit.toNat), .badValue, 2) (by simp [definePlaneChecks]))
  refine ⟨⟨hs.write, hs.series, hs.exclusive, hs.one, hs.reply⟩, fun e he => ?_, fun w hw p hp => ?_,
    Table.wf_put hs.sorted _ _⟩
  · rcases Table.mem_put he with rfl | he
    · exact Nat.zero_le _
    · exact hs.fill e he
  · rw [Table.get_put] at hp
    split at hp
    · cases hp
      dsimp only
      omega
    · exact hs.room w hw p hp

theorem FillsBounded.rewindPlane (hs : FillsBounded s) (hh : s.hasHanded) (k : Nat) :
    FillsBounded { s with planes := Table.modify s.planes k fun p => { p with fill := 0 } } := by
  refine .of_quiet ((hs.handed hh).left (hs.handed hh).reply rfl rfl) (fun n p hp => ?_)
    (Table.wf_modify hs.sorted k fun p => { p with fill := 0 })
  dsimp only at hp
  rw [Table.get_modify] at hp
  split at hp
  · obtain ⟨q, hq, rfl⟩ := Option.map_eq_some_iff.1 hp
    exact Nat.zero_le _
  · exact hs.fillsIn n p hp

/-- R36, R37: a write is claimed only for a plane that is not FULL. -/
theorem FillsBounded.claimWrite (hs : FillsBounded s) (hh : s.hasHanded) {x : Selector} {line count : Half}
    (hc : passes (lineDataChecks x line count s)) (words : List Half) :
    FillsBounded (s.claimWrite x line.toNat words) := by
  have hquiet := hs.handed hh
  obtain ⟨m, hm⟩ := hh
  have hnotFull : ((Table.get s.planes x.wire).any fun p => decide (p.fill = p.limit)) = false :=
    hc ((Table.get s.planes x.wire).any fun p => decide (p.fill = p.limit), .busy,
      ((Table.get s.planes x.wire).map Plane.fill).getD 0) (by simp [lineDataChecks])
  have hroom : ∀ p, Table.get s.planes x.wire = some p → p.fill < p.limit := by
    intro p hp
    have hbelow := hs.fillsIn _ p hp
    have hne : p.fill ≠ p.limit := by simpa [hp] using hnotFull
    omega
  have hclaimed : ∀ slot, FillsBounded
      { s.await with arbiter := { s.arbiter with writeWaiting := some ⟨x, slot, words⟩ } } := by
    intro slot
    have hnone : ∀ w, s.arbiter.access ≠ some (.write w) := fun w h => hquiet.writing w (.inr h)
    refine ⟨⟨fun _ _ => ⟨m, by simp [hm]⟩, fun h => ?_, fun h => ?_, fun w h => absurd h (hnone w),
      fun r m h => absurd h (hquiet.reply r m)⟩, hs.fill, fun w hw p hp => ?_, hs.sorted⟩
    · simp [hquiet.series] at h
    · simp [hquiet.series] at h
    · rcases hw with hw | hw
      · cases hw
        exact hroom p hp
      · exact absurd hw (hnone w)
  exact (hclaimed _).work (SameWork.serve _) (by simp [State.claimWrite])

/-- R38, R39: a completed write raises a fill mark that lay below its limit, and is answered. -/
theorem FillsBounded.writeComplete (hs : FillsBounded s) : FillsBounded (writeComplete s) := by
  unfold Machine.writeComplete
  split
  · rename_i c hc
    obtain ⟨m, hm⟩ := hs.write c (.inr hc)
    have hwaiting := hs.one c hc
    have hseries : s.transport.series = none := by
      cases h : s.transport.series with
      | none => rfl
      | some x => exact absurd (.inr hc) (hs.exclusive (by simp [h]) c)
    have hreply : ∀ r x, s.link.transmitter ≠ some ⟨.reply r, x⟩ := by
      intro r x h
      obtain ⟨q, hq⟩ := hs.reply r x h
      rw [hm] at hq
      cases hq
    have hnoted : FillsBounded (State.noteWritten c.sel { s with
        arbiter := { s.arbiter with access := none, lastServed := .planeWriter }
        store := Memory.writeLine s.store c.slot c.words }) := by
      refine .of_quiet ⟨fun w hw => ?_, by simpa using hseries, ?_⟩ ?_ ?_
      · rcases hw with hw | hw <;> simp [hwaiting] at hw
      · unfold State.noteWritten
        split <;> exact hreply
      all_goals unfold State.noteWritten; split
      · rename_i p hp
        intro k q hq
        simp only [State.accept_eq_answer, State.answer_frame, Table.get_put] at hq
        split at hq
        · cases hq
          exact hs.room c (.inr hc) p hp
        · exact hs.fillsIn k q hq
      · exact hs.fillsIn
      · exact Table.wf_put hs.sorted _ _
      · exact hs.sorted
    exact hnoted.work SameWork.prefetch (by simp)
  all_goals exact hs

/-- R41, R88: a completed read makes no write. -/
theorem FillsBounded.readComplete (hs : FillsBounded s) : FillsBounded (readComplete s) := by
  unfold Machine.readComplete
  split
  · rename_i c discard hc
    have hidle : FillsBounded { s with arbiter := { s.arbiter with access := none, lastServed := .prefetcher } } := by
      refine hs.work ⟨rfl, fun r m h => ⟨r, m, h⟩, id, fun w hw => ?_, fun _ w h => ?_⟩ rfl
      · rcases hw with hw | hw
        · exact .inl hw
        · cases hw
      · cases h
    have hadded : ∀ words, SameWork { s with arbiter := { s.arbiter with access := none, lastServed := .prefetcher } }
        (State.addRow words { s with arbiter := { s.arbiter with access := none, lastServed := .prefetcher } }) := by
      intro words
      unfold State.addRow
      split
      · exact .of_eq rfl rfl rfl
      · split
        · exact .of_eq rfl rfl rfl
        · dsimp only
          split
          · exact .of_eq rfl rfl rfl
          · exact ⟨rfl, fun r m h => ⟨r, m, h⟩, id, fun _ => id, id⟩
    dsimp only
    split
    · exact hidle.work SameWork.prefetch (by simp)
    · exact hidle.work ((hadded _).trans SameWork.prefetch) (by simp)
  all_goals exact hs

/-! ## The series of pull-downs (R130, R131) -/

/-- A series that goes on, whose request waits with no write in flight, or is answered. -/
theorem FillsBounded.nextPullDown (hs : FillsBounded s) {m : Message} (hm : s.link.current = some ⟨m, .waiting⟩)
    (hwriting : ∀ w, ¬ s.writing w) (x : Series) : FillsBounded (s.nextPullDown x) := by
  have hreply : ∀ r y, s.link.transmitter ≠ some ⟨.reply r, y⟩ := by
    intro r y h
    obtain ⟨q, hq⟩ := hs.reply r y h
    rw [hm] at hq
    cases hq
  unfold State.nextPullDown
  split
  · exact ⟨⟨fun w hw => absurd hw (hwriting w), fun _ => ⟨m, hm⟩, fun _ => hwriting, hs.one,
      fun r y h => absurd h (hreply r y)⟩, hs.fill, fun w hw => absurd hw (hwriting w), hs.sorted⟩
  all_goals exact .of_quiet ⟨hwriting, rfl, hreply⟩ hs.fillsIn hs.sorted

/-- R130: Advance Frames waits for its series, or is answered. -/
theorem FillsBounded.advance (hs : FillsBounded s) (hh : s.hasHanded) (x : Series) :
    FillsBounded (s.await.nextPullDown x) := by
  have hquiet := hs.handed hh
  obtain ⟨m, hm⟩ := hh
  have hawaits : FillsBounded s.await := .of_quiet (hquiet.left hquiet.reply rfl rfl) hs.fillsIn hs.sorted
  exact hawaits.nextPullDown (m := m) (by simp [hm]) hquiet.writing x

/-- R130: a pull-down of a series has registered. -/
theorem FillsBounded.seriesRegistered (hs : FillsBounded s) : FillsBounded s.seriesRegistered := by
  unfold State.seriesRegistered
  split
  · exact hs
  · rename_i x hx
    have hsome : s.transport.series.isSome := by simp [hx]
    obtain ⟨m, hm⟩ := hs.series hsome
    have hwriting := hs.exclusive hsome
    split
    · refine .of_quiet ⟨hwriting, rfl, fun r y h => ?_⟩ hs.fillsIn hs.sorted
      obtain ⟨q, hq⟩ := hs.reply r y h
      rw [hm] at hq
      cases hq
    · exact hs.nextPullDown hm hwriting _

/-- R131: a series that ends in a fault is answered, and is over. -/
theorem FillsBounded.endSeries (hs : FillsBounded s) (c : TransportCause) :
    FillsBounded (State.endSeries s.transport.series { s with transport := s.transport.enterFault c }) := by
  unfold State.endSeries
  split
  · rename_i x hx
    have hsome : s.transport.series.isSome := by simp [hx]
    obtain ⟨m, hm⟩ := hs.series hsome
    refine .of_quiet ⟨hs.exclusive hsome, rfl, fun r y h => ?_⟩ hs.fillsIn hs.sorted
    obtain ⟨q, hq⟩ := hs.reply r y h
    rw [hm] at hq
    cases hq
  · rename_i hx
    exact hs.congr rfl (by simp [hx, Transport.enterFault]) rfl rfl

/-! ## The end of a job and of a message -/

theorem FillsBounded.endJob (hs : FillsBounded s) (o : JobOutcome) (j : Job) : FillsBounded (s.endJob o j) := by
  obtain ⟨p, hp⟩ := endJob_planes o j s
  have hused := SameFills.usePlanes (· - 1) j.work.planes s.planes
  refine hs.same (.of_eq (by simp) (by simp) (by simp)) ?_
  rw [hp]
  exact hused.trans (.filter (hused.wf hs.sorted) p)

/-- The bounds through the frame cycle. -/
theorem fillsBounded_cycle : CycleKeeps (fun _ => True) FillsBounded := by
  constructor
  case running => trivial
  case active => exact fun _ _ _ => trivial
  case halt => exact fun s r hs => hs.work (SameWork.halt r) (by simp)
  case spoil => exact fun s c l ch _ hs => hs.work (SameWork.spoil c l ch) (by simp)
  case layDown => exact fun s hs => hs.work SameWork.layDown (by simp)
  case rest => exact fun s _ hs => hs.work (SameWork.layDown.trans (.of_eq rfl rfl rfl)) (by simp)
  case enterPreparing => exact fun s _ _ hs => hs.work (SameWork.layDown.trans (.of_eq rfl rfl rfl)) (by simp)
  case trimUpdate => exact fun s hs => hs.work SameWork.trimUpdate (by simp)
  case prefetch => exact fun s hs => hs.work SameWork.prefetch (by simp)
  case startPullDown => exact fun s _ hs => hs.congr rfl rfl rfl rfl
  case endJob => exact fun s o j _ hs => hs.endJob o j
  case countBlank => exact fun s _ hs => hs.congr rfl rfl rfl rfl
  case countFrame => exact fun s _ hs => hs.congr rfl rfl rfl rfl
  case takeMeans => exact fun s hs => hs.congr rfl rfl rfl rfl
  case suspectEnd =>
    intro s ch _ hs
    have hlogged : FillsBounded (s.logSuspect ch) := hs.congr rfl rfl rfl rfl
    have hdone := completeHead_keeps (P := FillsBounded) (fun _ _ _ _ hu => hu.endJob _ _) hlogged
    exact hdone.work (SameWork.halt _) (by simp [State.suspectEnd])

/-- R180, R189: the end of a reply completes the request, and the next message is taken. -/
theorem FillsBounded.endReply (hs : FillsBounded s) (hquiet : Quiet s) (r : Reply) : FillsBounded (s.endReply r) := by
  have hdone : FillsBounded { s with link := { s.link with current := none } } :=
    .of_quiet (hquiet.left hquiet.reply rfl rfl) hs.fillsIn hs.sorted
  have hfree : Quiet { s with link := { s.link with current := none } } := hquiet.left hquiet.reply rfl rfl
  simp only [State.endReply]
  split
  · -- Soft Reset takes hold
    refine FillsBounded.takeNext ?_
    have hended := fillsBounded_cycle.softResetRun hdone
    have hrun : SameWork { s with link := { s.link with current := none } }
        (State.softResetRun { s with link := { s.link with current := none } }) := by
      unfold State.softResetRun
      split
      · exact SameWork.spoil ..
      · exact SameWork.halt _
      · exact SameWork.halt _
    have hplanes : SameFills s.planes (State.softReset { s with link := { s.link with current := none } }).planes := by
      have hdropped : (State.softReset { s with link := { s.link with current := none } }).planes =
          s.planes.map fun e => (e.1, { e.2 with use := 0 }) := by
        simp [State.softReset, State.softResetLink, State.softResetBlocks, State.dropJobs]
      rw [hdropped]
      refine ⟨fun k p hp => ?_, fun hwf => Table.wf_map hwf fun e => { e.2 with use := 0 }⟩
      obtain ⟨e, he, hpair⟩ := List.mem_map.1 (Table.mem_of_get hp)
      cases hpair
      exact ⟨e.2, Table.get_of_mem hs.sorted he, rfl, rfl⟩
    refine .of_quiet ⟨fun w hw => hfree.writing w (hrun.writing w hw), ?_, fun r m h => ?_⟩ (fun k p hp => ?_)
      (hplanes.wf hs.sorted)
    · have hseries : (State.softReset { s with link := { s.link with current := none } }).transport.series =
          s.transport.softReset.series := by
        simp [State.softReset, State.softResetLink, State.softResetBlocks, State.dropJobs]
      rw [hseries]
      unfold Transport.softReset
      split
      · rfl
      · exact hquiet.series
    · obtain ⟨r', m', hr⟩ := hrun.reply r m h
      exact hfree.reply r' m' hr
    · obtain ⟨q, hq, hfill, hlimit⟩ := hplanes.fill k p hp
      rw [hfill, hlimit]
      exact hs.fillsIn k q hq
  · exact hdone.takeNext

/-- R3, R172, R185: the end of a message. -/
theorem FillsBounded.endTransmission (hs : FillsBounded s) {x : Transmission} (hx : s.link.transmitter = some x) :
    FillsBounded (s.endTransmission x) := by
  have hidle : FillsBounded { s with link := { s.link with transmitter := none } } :=
    hs.work (.of_link rfl (fun r m h => nomatch h) rfl rfl) rfl
  simp only [State.endTransmission]
  split
  · rename_i r hr
    obtain ⟨q, hq⟩ := hs.reply r x.msg (by rw [hx, ← hr])
    obtain ⟨hwriting, hseries⟩ := hs.idle (by simp [hq])
    exact hidle.endReply ⟨hwriting, hseries, fun r m h => nomatch h⟩ r
  · exact hidle.work (.of_link rfl (fun r m h => h) rfl rfl) rfl
  · exact hidle.congr rfl rfl rfl rfl
  · exact hidle.congr rfl rfl rfl rfl

/-- Every piece of work keeps the bounds. -/
theorem fillsBounded_keeps : Keeps FillsBounded := by
  have K := fillsBounded_cycle
  constructor
  case answer => exact fun s r hh hs => hs.answer hh r
  case arrive => exact fun s m hs => hs.arrive m
  case receiveByte => exact fun s b hs => hs.receiveByte b
  case gap => exact fun s hs => (hs.setReceiver .hunting).setLinkFlag .framing
  case transmit => exact fun s h hs => hs.startTransmission h
  case endTransmission => exact fun s x _ hx hs => hs.endTransmission hx
  case raise => exact fun s c hs => hs.work (.of_raise rfl rfl rfl) rfl
  case takeEntries => exact fun s n hh hs => hs.takeEntries hh n
  case clearReported => exact fun s hs => hs.work (.of_link rfl (fun _ _ => id) rfl rfl) rfl
  case setMask => exact fun s m hs => hs.work (SameWork.setMask m) rfl
  case acceptJob =>
    intro s p hh _ hs
    have hused := SameFills.usePlanes (· + 1) (queuedJob p).work.planes s.planes
    have hquiet := hs.handed hh
    have hclaimed : FillsBounded { s with planes := usePlanes (· + 1) (queuedJob p).work.planes s.planes } :=
      hs.same (.of_eq rfl rfl rfl) hused
    exact .of_quiet (hquiet.left hquiet.reply rfl rfl) hclaimed.fillsIn hclaimed.sorted
  case cancel => exact fun s tag j _ hs => hs.endJob _ _
  case definePlane => exact fun s sel x base limit width _ _ hc hs => hs.definePlane hc
  case undefinePlane => exact fun s x _ _ hs => hs.same (.of_eq rfl rfl rfl) (.filter hs.sorted _)
  case rewindPlane => exact fun s x hh _ hs => hs.rewindPlane hh _
  case claimWrite => exact fun s x line count words hh hc hs => hs.claimWrite hh hc words
  case between => exact fun s h0 hr hs => K.between h0 hr hs
  case passBlank => exact fun s h0 hs => K.passBlank h0 hs
  case cleanEnd => exact fun s h0 hx hs => K.cleanEnd h0 hx hs
  case halt => exact K.halt
  case spoil => exact K.spoil
  case rest => exact K.rest
  case openReel => exact fun s p _ hs => hs.same (.of_eq rfl rfl rfl) (.filter hs.sorted _)
  case closeReel =>
    intro s _ _ hs
    have hflushed := (flush_keeps (P := FillsBounded) (fun _ _ _ _ hu => hu.endJob _ _) hs).1
    exact hflushed.same (.of_eq rfl rfl rfl) (.filter hflushed.sorted _)
  case registerGate => exact fun s g _ hs => hs.congr rfl rfl rfl rfl
  case settle => exact fun s _ hs => hs.congr rfl rfl rfl rfl
  case beginExposing => exact fun s _ _ hs => hs.congr rfl rfl rfl rfl
  case advance => exact fun s count hh _ hs => hs.advance hh _
  case fault => exact fun s c hs => K.fault (hs.endSeries c)
  case registered =>
    exact fun s _ _ hs => FillsBounded.seriesRegistered (hs.congr rfl rfl rfl rfl)
  case setLevels => exact fun s l _ hs => hs.work (SameWork.setLevels l) (by simp)
  case interlockOpens =>
    exact fun s l _ hs => K.interlockOpens ((hs.work (SameWork.setLevels l) (by simp)).congr rfl rfl rfl rfl)
  case laserReady =>
    exact fun s a b hs => K.laserReady (fun s hs => hs.congr rfl rfl rfl rfl) (hs.congr rfl rfl rfl rfl)
  case clockLost =>
    intro s ch hs
    have hset : FillsBounded (s.setChannel ch { s.monitor.channels.get ch with lost := true, expecting := false }) :=
      hs.congr rfl rfl rfl rfl
    exact K.clockLost (hset.work (SameWork.setMonitorFlags ch _) (by simp)) (fun _ _ _ hs => hs.congr rfl rfl rfl rfl) hs
  case reading =>
    exact fun s p o _ hs => hs.work (((SameWork.takeReading p .red o.red).trans
      (SameWork.takeReading p .green o.green)).trans (SameWork.takeReading p .blue o.blue)) (by simp)
  case takeSet =>
    intro s line facet reel j set rest _ _ _ _ hs
    have hlaid : FillsBounded (layLine line facet reel j.work set.rows { s with seq := { s.seq with queue := rest } }) :=
      hs.congr rfl rfl rfl rfl
    exact hlaid.work SameWork.prefetch (by simp)
  case readComplete => exact fun s hs => hs.readComplete
  case writeComplete => exact fun s hs => hs.writeComplete
  case reset =>
    exact fun s _ => .of_quiet ⟨by simp [State.writing, State.afterReset, Arbiter.reset], rfl,
      by simp [State.afterReset, Link.reset]⟩ (by simp [FillsIn, State.afterReset]) .nil
  case release => exact fun s r _ hs => hs.work (.of_link rfl (fun _ _ => id) rfl rfl) rfl
  case levelsInReset =>
    exact fun s l _ hs => hs.work ⟨rfl, fun r m h => ⟨r, m, h⟩, fun h => (nomatch h), fun _ => id, id⟩ rfl
  all_goals
    intros
    rename_i hs
    exact hs.congr (by simp) (by simp) (by simp) (by simp)

end Fills

/-! ## The obligation -/

/-- Settles O59: places change where a descriptor is defined or undefined alone; a fill mark rises where a write that was
claimed below the limit completes. -/
theorem stepKeepsPlanesInStore : Obligations.StepKeepsPlanesInStore :=
  ⟨fun _ _ hs h => planesDisjoint_keeps.step (fun _ _ hs => hs.congr rfl) hs h,
    fun _ _ hs h => fillsBounded_keeps.step (fun _ _ hs => hs.congr rfl rfl rfl rfl) hs h⟩

end Sys2Proof.Machine
end

section
/-! Use counts equal to the number of LIVE jobs that name the descriptor or set: the counts against the works of the LIVE
jobs, and what each piece of work does to either. -/

namespace Sys2Proof.Machine

/-! ## Selectors and the distinct planes of a job (R10, R88) -/

/-- Selectors within their tables are told apart by their wire values. -/
theorem Selector.wire_inj {x y : Selector} (hx : x.inTable) (hy : y.inTable) (h : x.wire = y.wire) : x = y := by
  cases x <;> cases y <;> simp only [Selector.wire, Selector.inTable] at h hx hy
  · rw [h]
  · omega
  · omega
  · rw [Nat.add_left_cancel h]

/-- R25: a selector read off the wire lies within its table. -/
theorem Selector.ofWire_inTable {w : Half} {x : Selector} (h : Selector.ofWire w = some x) : x.inTable := by
  unfold Selector.ofWire at h
  dsimp only at h
  split at h
  · split at h
    · cases h; assumption
    · cases h
  · split at h
    · split at h
      · cases h; assumption
      · cases h
    · cases h

/-- R88: the distinct planes are the three selectors. -/
theorem Rgb.mem_distinct {p : Rgb Selector} {sel : Selector} :
    sel ∈ Rgb.distinct p ↔ sel = p.red ∨ sel = p.green ∨ sel = p.blue := by
  unfold Rgb.distinct
  by_cases hg : p.green = p.red
  · by_cases hb : p.blue = p.red
    · simp [hg, hb]
    · simp [hg, hb]
  · by_cases hb : p.blue = p.red ∨ p.blue = p.green
    · simp only [hg, hb, if_true, if_false, List.append_nil, List.mem_cons, List.not_mem_nil, or_false]
      rcases hb with hb | hb <;> rw [hb] <;> tauto
    · simp [hg, hb]

/-- R88: each of them once. -/
theorem Rgb.distinct_nodup (p : Rgb Selector) : (Rgb.distinct p).Nodup := by
  unfold Rgb.distinct
  by_cases hg : p.green = p.red
  · by_cases hb : p.blue = p.red
    · simp [hg, hb]
    · simp [hg, hb, Ne.symm hb]
  · by_cases hb : p.blue = p.red ∨ p.blue = p.green
    · simp [hg, hb, Ne.symm hg]
    · obtain ⟨hbr, hbg⟩ := not_or.1 hb
      simp [hg, hbr, hbg, Ne.symm hg, Ne.symm hbr, Ne.symm hbg]

/-- The wire values of a job's distinct planes, each once. -/
theorem Work.wires_nodup {w : Work} (h : ∀ sel ∈ w.planes, sel.inTable) : (w.planes.map Selector.wire).Nodup := by
  refine List.Nodup.map_on (fun x hx y hy => Selector.wire_inj (h x hx) (h y hy)) ?_
  cases w with
  | expose p c r => exact Rgb.distinct_nodup p
  | flash | blank => exact List.nodup_nil

/-! ## What a number holds after a change of use counts -/

/-- The use count of each named plane is changed once; the other planes hold what they held. -/
theorem usePlanes_get (f : Nat → Nat) {sels : List Selector} (hsels : (sels.map Selector.wire).Nodup)
    (a : Table Plane) (k : Nat) :
    Table.get (usePlanes f sels a) k =
      if k ∈ sels.map Selector.wire then (Table.get a k).map fun p => { p with use := f p.use } else Table.get a k := by
  induction sels generalizing a with
  | nil => rfl
  | cons sel sels ih =>
    obtain ⟨hfirst, hrest⟩ := List.nodup_cons.1 hsels
    have hstep : usePlanes f (sel :: sels) a =
        usePlanes f sels (Table.modify a sel.wire fun p => { p with use := f p.use }) := rfl
    rw [hstep, ih hrest, Table.get_modify]
    by_cases hk : sel.wire = k
    · subst hk
      simp [hfirst]
    · simp [hk, Ne.symm hk]

/-- The use count of a named set is changed; the other sets hold what they held. -/
theorem useCurve_get (f : Nat → Nat) (set : Option Nat) (a : Table CurveSet) (n : Nat) :
    Table.get (useCurve f set a) n =
      if set = some n then (Table.get a n).map fun c => { c with use := f c.use } else Table.get a n := by
  cases set with
  | none => rfl
  | some m =>
    simp only [useCurve, Table.get_modify, Option.some.injEq]

theorem useCurve_wf (f : Nat → Nat) (set : Option Nat) {a : Table CurveSet} (h : Table.wf a) :
    Table.wf (useCurve f set a) := by
  cases set with
  | none => exact h
  | some m => exact Table.wf_modify h m fun c => { c with use := f c.use }

/-! ## Use counts against works (R10) -/

/-- R10: whether a job's work names a plane descriptor. -/
def Work.names (k : Nat) (w : Work) : Bool := (w.planes.map Selector.wire).contains k

/-- R10: whether a job's work names a curve set. -/
def Work.uses (n : Nat) (w : Work) : Bool := decide (w.curve = some n)

/-- Every use count is the number of works that name the descriptor or set, and what they name is defined and READY. -/
structure Counted (works : List Work) (planes : Table Plane) (curves : Table CurveSet) : Prop where
  planeUse : ∀ k p, Table.get planes k = some p → p.use = works.countP (Work.names k)
  curveUse : ∀ n c, Table.get curves n = some c → c.use = works.countP (Work.uses n)
  defined : ∀ w ∈ works, ∀ sel ∈ w.planes, sel.inTable ∧ (Table.get planes sel.wire).isSome
  loaded : ∀ w ∈ works, ∀ n, w.curve = some n → ∃ c, Table.get curves n = some c ∧ c.ready = true
  planesWf : Table.wf planes
  curvesWf : Table.wf curves

/-- The works of the LIVE jobs. -/
def State.works (s : State) : List Work := s.jobs.live.map Job.work

theorem planeUsers_eq (s : State) (k : Nat) : s.planeUsers k = s.works.countP (Work.names k) := by
  rw [State.works, List.countP_map]; rfl

theorem curveUsers_eq (s : State) (n : Nat) : s.curveUsers n = s.works.countP (Work.uses n) := by
  rw [State.works, List.countP_map]; rfl

theorem usesCounted_iff (s : State) :
    UsesCounted s ↔ Counted s.works s.planes s.curves ∧ (s.reel = none → s.works = []) := by
  constructor
  · intro h
    refine ⟨⟨fun k p hp => ?_, fun n c hc => ?_, ?_, ?_, h.planesWf, h.curvesWf⟩, fun hr => ?_⟩
    · rw [← planeUsers_eq]; exact h.planes _ (Table.mem_of_get hp)
    · rw [← curveUsers_eq]; exact h.curves _ (Table.mem_of_get hc)
    · simpa [State.works] using h.defined
    · simpa [State.works] using h.loaded
    · rw [State.works, h.noReel hr]; rfl
  · rintro ⟨h, hreel⟩
    refine ⟨fun e he => ?_, fun e he => ?_, ?_, ?_, fun hr => ?_, h.planesWf, h.curvesWf⟩
    · rw [planeUsers_eq]; exact h.planeUse _ _ (Table.get_of_mem h.planesWf he)
    · rw [curveUsers_eq]; exact h.curveUse _ _ (Table.get_of_mem h.curvesWf he)
    · simpa [State.works] using h.defined
    · simpa [State.works] using h.loaded
    · exact List.map_eq_nil_iff.1 (hreel hr)

section Counts

variable {works : List Work} {planes planes' : Table Plane} {curves curves' : Table CurveSet} {w : Work}

/-- A descriptor whose use count is 0 is named by no work. -/
theorem Counted.unnamed (h : Counted works planes curves) {k : Nat} {p : Plane} (hp : Table.get planes k = some p)
    (huse : p.use = 0) : ∀ w ∈ works, Work.names k w = false := by
  have hcount := h.planeUse k p hp
  rw [huse, eq_comm, List.countP_eq_zero] at hcount
  simpa using hcount

/-- A set whose use count is 0 is named by no work. -/
theorem Counted.unused (h : Counted works planes curves) {n : Nat} {c : CurveSet} (hc : Table.get curves n = some c)
    (huse : c.use = 0) : ∀ w ∈ works, Work.uses n w = false := by
  have hcount := h.curveUse n c hc
  rw [huse, eq_comm, List.countP_eq_zero] at hcount
  simpa using hcount

theorem Work.names_of_mem {sel : Selector} (h : sel ∈ w.planes) : Work.names sel.wire w = true := by
  simp only [Work.names, List.contains_eq_mem, decide_eq_true_eq]
  exact List.mem_map_of_mem h

theorem Work.uses_of_curve {n : Nat} (h : w.curve = some n) : Work.uses n w = true := by
  simp [Work.uses, h]

/-- An UNDEFINED descriptor is named by no work. -/
theorem Counted.undefined (h : Counted works planes curves) {k : Nat} (hk : Table.get planes k = none) :
    works.countP (Work.names k) = 0 := by
  refine List.countP_eq_zero.2 fun w hw hn => ?_
  simp only [Work.names, List.contains_eq_mem, decide_eq_true_eq, List.mem_map] at hn
  obtain ⟨sel, hsel, rfl⟩ := hn
  have := (h.defined w hw sel hsel).2
  simp [hk] at this

/-- A set that is not READY is named by no work. -/
theorem Counted.notReady (h : Counted works planes curves) {n : Nat}
    (hn : ∀ c, Table.get curves n = some c → c.ready = false) : works.countP (Work.uses n) = 0 := by
  refine List.countP_eq_zero.2 fun w hw hu => ?_
  obtain ⟨c, hc, hready⟩ := h.loaded w hw n (by simpa [Work.uses] using hu)
  rw [hn c hc] at hready
  cases hready

/-- Planes whose use counts are as they were. -/
theorem Counted.samePlanes (h : Counted works planes curves)
    (hsame : ∀ k, (Table.get planes' k).map Plane.use = (Table.get planes k).map Plane.use) (hwf : Table.wf planes') :
    Counted works planes' curves := by
  refine ⟨fun k p hp => ?_, h.curveUse, fun w hw sel hsel => ?_, h.loaded, hwf, h.curvesWf⟩
  · have hk := hsame k
    rw [hp, Option.map_some, eq_comm, Option.map_eq_some_iff] at hk
    obtain ⟨q, hq, huse⟩ := hk
    rw [← huse]
    exact h.planeUse k q hq
  · obtain ⟨hin, hdef⟩ := h.defined w hw sel hsel
    refine ⟨hin, ?_⟩
    rw [← Option.isSome_map (f := Plane.use), hsame, Option.isSome_map]
    exact hdef

/-- R9 step 3: a job is accepted, and what it names is used once more. -/
theorem Counted.claim (h : Counted works planes curves)
    (hplanes : ∀ sel ∈ w.planes, sel.inTable ∧ (Table.get planes sel.wire).isSome)
    (hcurve : ∀ n, w.curve = some n → ∃ c, Table.get curves n = some c ∧ c.ready = true) :
    Counted (works ++ [w]) (usePlanes (· + 1) w.planes planes) (useCurve (· + 1) w.curve curves) := by
  have hget := usePlanes_get (· + 1) (Work.wires_nodup fun sel hsel => (hplanes sel hsel).1) planes
  have hdefined : ∀ k, (Table.get (usePlanes (· + 1) w.planes planes) k).isSome = (Table.get planes k).isSome := by
    intro k; rw [hget]; split <;> simp
  have hmem : ∀ v ∈ works ++ [w], v ∈ works ∨ v = w := by simp
  refine ⟨fun k p hp => ?_, fun n c hc => ?_, fun v hv sel hsel => ?_, fun v hv n hn => ?_,
    usePlanes_wf _ _ h.planesWf, useCurve_wf _ _ h.curvesWf⟩
  · rw [hget] at hp
    rw [List.countP_append, List.countP_singleton]
    split at hp
    · rename_i hk
      obtain ⟨q, hq, rfl⟩ := Option.map_eq_some_iff.1 hp
      simp [h.planeUse k q hq, Work.names, hk]
    · rename_i hk
      simp [h.planeUse k p hp, Work.names, hk]
  · rw [useCurve_get] at hc
    rw [List.countP_append, List.countP_singleton]
    split at hc
    · rename_i hn
      obtain ⟨d, hd, rfl⟩ := Option.map_eq_some_iff.1 hc
      simp [h.curveUse n d hd, Work.uses, hn]
    · rename_i hn
      simp [h.curveUse n c hc, Work.uses, hn]
  · rw [hdefined]
    rcases hmem v hv with hv | rfl
    · exact h.defined v hv sel hsel
    · exact hplanes sel hsel
  · have hready : ∃ c, Table.get curves n = some c ∧ c.ready = true := by
      rcases hmem v hv with hv | rfl
      · exact h.loaded v hv n hn
      · exact hcurve n hn
    obtain ⟨c, hc, hready⟩ := hready
    rw [useCurve_get, hc]
    split
    · exact ⟨_, rfl, hready⟩
    · exact ⟨c, rfl, hready⟩

/-- R16 step 2: a job ends, and what it named is used once less. -/
theorem Counted.release {before after : List Work} (h : Counted (before ++ w :: after) planes curves) :
    Counted (before ++ after) (usePlanes (· - 1) w.planes planes) (useCurve (· - 1) w.curve curves) := by
  have hw : w ∈ before ++ w :: after := by simp
  have hget := usePlanes_get (· - 1) (Work.wires_nodup fun sel hsel => (h.defined w hw sel hsel).1) planes
  have hmem : ∀ v ∈ before ++ after, v ∈ before ++ w :: after := by
    intro v hv
    rcases List.mem_append.1 hv with hv | hv <;> simp [hv]
  refine ⟨fun k p hp => ?_, fun n c hc => ?_, fun v hv sel hsel => ?_, fun v hv n hn => ?_,
    usePlanes_wf _ _ h.planesWf, useCurve_wf _ _ h.curvesWf⟩
  · rw [hget] at hp
    rw [List.countP_append]
    split at hp
    · rename_i hk
      obtain ⟨q, hq, rfl⟩ := Option.map_eq_some_iff.1 hp
      have hcount := h.planeUse k q hq
      rw [List.countP_append, List.countP_cons_of_pos (by simpa [Work.names] using hk)] at hcount
      dsimp only
      omega
    · rename_i hk
      have hcount := h.planeUse k p hp
      rwa [List.countP_append, List.countP_cons_of_neg (by simpa [Work.names] using hk)] at hcount
  · rw [useCurve_get] at hc
    rw [List.countP_append]
    split at hc
    · rename_i hn
      obtain ⟨d, hd, rfl⟩ := Option.map_eq_some_iff.1 hc
      have hcount := h.curveUse n d hd
      rw [List.countP_append, List.countP_cons_of_pos (by simpa [Work.uses] using hn)] at hcount
      dsimp only
      omega
    · rename_i hn
      have hcount := h.curveUse n c hc
      rwa [List.countP_append, List.countP_cons_of_neg (by simpa [Work.uses] using hn)] at hcount
  · obtain ⟨hin, hdef⟩ := h.defined v (hmem v hv) sel hsel
    refine ⟨hin, ?_⟩
    rw [hget]
    split <;> simpa using hdef
  · obtain ⟨c, hc, hready⟩ := h.loaded v (hmem v hv) n hn
    rw [useCurve_get, hc]
    split
    · exact ⟨_, rfl, hready⟩
    · exact ⟨c, rfl, hready⟩

/-- Descriptors that no work names may become UNDEFINED. -/
theorem Counted.dropPlanes (h : Counted works planes curves) (p : Nat × Plane → Bool)
    (hp : ∀ e ∈ planes, p e = false → ∀ w ∈ works, Work.names e.1 w = false) :
    Counted works (planes.filter p) curves := by
  have hsub : ∀ k q, Table.get (planes.filter p) k = some q → Table.get planes k = some q :=
    fun k q hq => Table.get_of_sublist List.filter_sublist h.planesWf hq
  refine ⟨fun k q hq => h.planeUse k q (hsub k q hq), h.curveUse, fun w hw sel hsel => ?_, h.loaded,
    h.planesWf.filter p, h.curvesWf⟩
  obtain ⟨hin, hdef⟩ := h.defined w hw sel hsel
  obtain ⟨q, hq⟩ := Option.isSome_iff_exists.1 hdef
  have hmem := Table.mem_of_get hq
  have hkept : p (sel.wire, q) = true := by
    by_contra hdrop
    have hnot := hp _ hmem (by simpa using hdrop) w hw
    rw [Work.names_of_mem hsel] at hnot
    cases hnot
  have hget := Table.get_of_mem (h.planesWf.filter p) (List.mem_filter.2 ⟨hmem, hkept⟩)
  exact ⟨hin, by rw [hget]; rfl⟩

/-- R29: a new plane is named by no work. -/
theorem Counted.definePlane (h : Counted works planes curves) {k : Nat} (hk : Table.get planes k = none) {p : Plane}
    (huse : p.use = 0) : Counted works (Table.put planes k p) curves := by
  refine ⟨fun n q hq => ?_, h.curveUse, fun w hw sel hsel => ?_, h.loaded, Table.wf_put h.planesWf _ _, h.curvesWf⟩
  · rw [Table.get_put] at hq
    split at hq
    · rename_i hkn
      cases hq
      rw [huse, ← hkn, h.undefined hk]
    · exact h.planeUse n q hq
  · obtain ⟨hin, hdef⟩ := h.defined w hw sel hsel
    refine ⟨hin, ?_⟩
    rw [Table.get_put]
    split
    · rfl
    · exact hdef

/-- A curve set that no work names may become anything that is used by none. -/
theorem Counted.changeCurve (h : Counted works planes curves) {n : Nat} (hnone : works.countP (Work.uses n) = 0)
    (hother : ∀ m, m ≠ n → Table.get curves' m = Table.get curves m)
    (huse : ∀ c, Table.get curves' n = some c → c.use = 0) (hwf : Table.wf curves') : Counted works planes curves' := by
  refine ⟨h.planeUse, fun m c hc => ?_, h.defined, fun w hw m hm => ?_, h.planesWf, hwf⟩
  · by_cases hmn : m = n
    · subst hmn
      rw [huse c hc, hnone]
    · rw [hother m hmn] at hc
      exact h.curveUse m c hc
  · have hmn : m ≠ n := by
      rintro rfl
      exact List.countP_eq_zero.1 hnone w hw (Work.uses_of_curve hm)
    obtain ⟨c, hc, hready⟩ := h.loaded w hw m hm
    exact ⟨c, (hother m hmn).trans hc, hready⟩

/-- With no LIVE job every count is 0. -/
theorem Counted.of_none (hplanes : ∀ k p, Table.get planes k = some p → p.use = 0)
    (hcurves : ∀ n c, Table.get curves n = some c → c.use = 0) (hpwf : Table.wf planes) (hcwf : Table.wf curves) :
    Counted [] planes curves :=
  ⟨hplanes, hcurves, fun _ h => by simp at h, fun _ h => by simp at h, hpwf, hcwf⟩

end Counts

section Steps

variable {s t : State}

/-! ## The pieces of work -/

/-- The counts against the works of the LIVE jobs. -/
theorem UsesCounted.counted (hs : UsesCounted s) : Counted s.works s.planes s.curves := ((usesCounted_iff s).1 hs).1

/-- R24: no LIVE job without a reel. -/
theorem UsesCounted.works_noReel (hs : UsesCounted s) : s.reel = none → s.works = [] := ((usesCounted_iff s).1 hs).2

/-- Counts, works and reel make the invariant. -/
theorem UsesCounted.of_counted {works : List Work} {planes : Table Plane} {curves : Table CurveSet}
    (h : Counted works planes curves) (hworks : t.works = works) (hplanes : t.planes = planes)
    (hcurves : t.curves = curves) (hreel : t.reel = none → works = []) : UsesCounted t := by
  subst hworks hplanes hcurves
  exact (usesCounted_iff t).2 ⟨h, hreel⟩

/-- The invariant rests on the works of the LIVE jobs, the two tables and the reel. -/
theorem UsesCounted.congr_works (hs : UsesCounted s) (hworks : t.works = s.works) (hplanes : t.planes = s.planes)
    (hcurves : t.curves = s.curves) (hreel : t.reel = s.reel) : UsesCounted t :=
  .of_counted hs.counted hworks hplanes hcurves (by rw [hreel]; exact hs.works_noReel)

theorem UsesCounted.congr (hs : UsesCounted s) (hjobs : t.jobs = s.jobs) (hplanes : t.planes = s.planes)
    (hcurves : t.curves = s.curves) (hreel : t.reel = s.reel) : UsesCounted t :=
  hs.congr_works (by rw [State.works, State.works, hjobs]) hplanes hcurves hreel

theorem HeadCounted.works (h : HeadCounted s t) : t.works = s.works := h.map_live fun _ _ _ hwork => hwork

/-- R16, R17: the tables at the end of a job: released counts, and freed descriptors of count 0 undefined. -/
theorem endJob_tables (o : JobOutcome) (j : Job) (s : State) :
    (s.endJob o j).curves = useCurve (· - 1) j.work.curve s.curves ∧
    ∃ p : Nat × Plane → Bool, (s.endJob o j).planes = (usePlanes (· - 1) j.work.planes s.planes).filter p ∧
      ∀ e, p e = false → e.2.use = 0 := by
  have hall : ∀ a : Table Plane, a = a.filter fun _ => true := fun a => by simp
  simp only [State.endJob, State.releasePlanes]
  split
  · split
    · exact ⟨rfl, _, rfl, fun e he => by
        simp only [Bool.not_eq_false', Bool.and_eq_true, decide_eq_true_eq] at he
        exact he.2⟩
    · exact ⟨rfl, _, hall _, fun e he => by cases he⟩
  · exact ⟨rfl, _, hall _, fun e he => by cases he⟩

/-- R16: a job that ends releases its counts. -/
theorem UsesCounted.endJob (hs : UsesCounted s) {j : Job} (h : s.FirstOfTag j) (o : JobOutcome) :
    UsesCounted (s.endJob o j) := by
  obtain ⟨-, before, after, hlive, hbefore⟩ := List.find?_eq_some_iff_append.1 h
  have hworks : s.works = before.map Job.work ++ j.work :: after.map Job.work := by
    rw [State.works, hlive, List.map_append, List.map_cons]
  have hleft : (s.endJob o j).works = before.map Job.work ++ after.map Job.work := by
    rw [State.works, endJob_jobs, hlive, List.eraseP_append_right _ fun k hk => by simpa using hbefore k hk]
    simp
  obtain ⟨hcurves, p, hplanes, hzero⟩ := endJob_tables o j s
  have hreleased := Counted.release (hworks ▸ hs.counted)
  refine .of_counted (hreleased.dropPlanes p fun e he hdrop => ?_) hleft hplanes hcurves fun hr => ?_
  · exact hreleased.unnamed (Table.get_of_mem hreleased.planesWf he) (hzero e hdrop)
  · have hnone := hs.works_noReel (by simpa using hr)
    simp [hworks] at hnone

/-- R8: what an accepted job names is defined and READY. -/
theorem queueJobChecks_pass {p : QueueJobItems} (hc : passes (queueJobChecks p s)) :
    s.reel.isSome ∧
    (∀ sel ∈ (queuedWork p).planes, sel.inTable ∧ (Table.get s.planes sel.wire).isSome) ∧
    (∀ n, (queuedWork p).curve = some n → ∃ c, Table.get s.curves n = some c ∧ c.ready = true) := by
  have hreel : s.reel.isNone = false := hc (s.reel.isNone, .noReel, 0) (by simp [queueJobChecks])
  have hready : s.curveNotReady (queuedWork p) = false :=
    hc (s.curveNotReady (queuedWork p), .notReady, p.curveSet.toNat) (by simp [queueJobChecks])
  have hdefined : (s.undefinedPlane (queuedWork p)).isSome = false :=
    hc ((s.undefinedPlane (queuedWork p)).isSome, .notDefined,
      ((s.undefinedPlane (queuedWork p)).map Selector.wire).getD 0) (by simp [queueJobChecks])
  refine ⟨by simpa using hreel, fun sel hsel => ?_, fun n hn => ?_⟩
  · cases hw : queuedWork p with
    | flash | blank => simp [hw, Work.planes] at hsel
    | expose x c r =>
      rw [hw] at hsel hdefined
      have hmem : sel = x.red ∨ sel = x.green ∨ sel = x.blue := Rgb.mem_distinct.1 hsel
      refine ⟨?_, ?_⟩
      · unfold queuedWork at hw
        split at hw
        · split at hw
          · rename_i hr hg hb
            cases hw
            rcases hmem with rfl | rfl | rfl
            · exact Selector.ofWire_inTable hr
            · exact Selector.ofWire_inTable hg
            · exact Selector.ofWire_inTable hb
          · cases hw
        · cases hw
        · cases hw
      · have hall : ∀ y ∈ x.toList, ¬ (Table.get s.planes y.wire).isNone = true := by
          simpa [State.undefinedPlane] using hdefined
        have hnone := hall sel (by simpa [Rgb.toList] using hmem)
        cases hget : Table.get s.planes sel.wire with
        | none => simp [hget] at hnone
        | some q => rfl
  · rw [State.curveNotReady, hn] at hready
    dsimp only at hready
    split at hready
    · rename_i c hcurve
      exact ⟨c, hcurve, by simpa using hready⟩
    · cases hready

theorem UsesCounted.acceptJob (hs : UsesCounted s) {p : QueueJobItems} (hc : passes (queueJobChecks p s)) :
    UsesCounted (s.acceptJob (queuedJob p)) := by
  obtain ⟨hreel, hplanes, hcurve⟩ := queueJobChecks_pass hc
  refine .of_counted (hs.counted.claim hplanes hcurve) ?_ rfl rfl fun hr => ?_
  · simp [State.works, State.acceptJob, queuedJob]
  · rw [(acceptJob_frame s _).2.2.2.2.2.1] at hr
    simp [hr] at hreel

/-- R29: a plane is defined only where none is. -/
theorem UsesCounted.definePlane (hs : UsesCounted s) {x : Selector} {base limit width : Half}
    (hc : passes (definePlaneChecks x base limit width s)) :
    UsesCounted { s with
      planes := Table.put s.planes x.wire ⟨base.toNat, limit.toNat, width.toNat, 0, 0⟩ } := by
  have hnone : (Table.get s.planes x.wire).isSome = false :=
    hc ((Table.get s.planes x.wire).isSome, .alreadyDefined, ((Table.get s.planes x.wire).map Plane.base).getD 0)
      (by simp [definePlaneChecks])
  exact .of_counted (hs.counted.definePlane (by simpa using hnone) rfl) rfl rfl rfl hs.works_noReel

/-- R31, R32: Undefine Plane and Rewind Plane ask for a plane at use count 0. -/
theorem freePlaneChecks_pass {x : Selector} (hc : passes (freePlaneChecks x s)) :
    ∃ p, Table.get s.planes x.wire = some p ∧ p.use = 0 := by
  have hsome : (Table.get s.planes x.wire).isNone = false :=
    hc ((Table.get s.planes x.wire).isNone, .notDefined, x.wire) (by simp [freePlaneChecks])
  have hfree : ((Table.get s.planes x.wire).any fun p => decide (0 < p.use)) = false :=
    hc ((Table.get s.planes x.wire).any fun p => decide (0 < p.use), .inUse,
      ((Table.get s.planes x.wire).map Plane.use).getD 0) (by simp [freePlaneChecks])
  cases hget : Table.get s.planes x.wire with
  | none => simp [hget] at hsome
  | some p => exact ⟨p, rfl, by simpa [hget] using hfree⟩

theorem UsesCounted.undefinePlane (hs : UsesCounted s) {x : Selector} (hc : passes (freePlaneChecks x s)) :
    UsesCounted { s with planes := Table.erase s.planes x.wire } := by
  obtain ⟨p, hp, huse⟩ := freePlaneChecks_pass hc
  refine .of_counted (hs.counted.dropPlanes _ fun e he hdrop => ?_) rfl rfl rfl hs.works_noReel
  have hnum : e.1 = x.wire := by simpa using hdrop
  rw [hnum]
  exact hs.counted.unnamed hp huse

/-- A change of planes that keeps every use count. -/
theorem UsesCounted.samePlanes (hs : UsesCounted s) {planes : Table Plane}
    (hsame : ∀ k, (Table.get planes k).map Plane.use = (Table.get s.planes k).map Plane.use) (hwf : Table.wf planes)
    (hworks : t.works = s.works) (hplanes : t.planes = planes) (hcurves : t.curves = s.curves)
    (hreel : t.reel = s.reel) : UsesCounted t :=
  .of_counted (hs.counted.samePlanes hsame hwf) hworks hplanes hcurves (by rw [hreel]; exact hs.works_noReel)

/-- R38: a fill mark that rises. -/
theorem UsesCounted.noteWritten (hs : UsesCounted s) (x : Selector) : UsesCounted (s.noteWritten x) := by
  unfold State.noteWritten
  split
  · rename_i p hp
    refine hs.samePlanes (fun k => ?_) (Table.wf_put hs.planesWf x.wire { p with fill := p.fill + 1 }) rfl rfl rfl rfl
    rw [Table.get_put]
    split
    · rename_i hk
      rw [← hk, hp]
      rfl
    · rfl
  · exact hs.congr rfl rfl rfl rfl

/-- A change of one curve set that no work names. -/
theorem UsesCounted.changeCurve (hs : UsesCounted s) {n : Nat} {curves : Table CurveSet}
    (hnone : s.works.countP (Work.uses n) = 0) (hother : ∀ m, m ≠ n → Table.get curves m = Table.get s.curves m)
    (huse : ∀ c, Table.get curves n = some c → c.use = 0) (hwf : Table.wf curves) :
    UsesCounted { s with curves := curves } :=
  .of_counted (hs.counted.changeCurve hnone hother huse hwf) rfl rfl rfl hs.works_noReel

/-- R50, R54: Begin Curve and Discard Curve ask for a set that no work names. -/
theorem UsesCounted.freeCurve (hs : UsesCounted s) {n : Nat} (hc : passes (freeCurveChecks n s)) :
    s.works.countP (Work.uses n) = 0 := by
  have hfree : decide (0 < s.curveUse n) = false :=
    hc (decide (0 < s.curveUse n), .inUse, s.curveUse n) (by simp [freeCurveChecks])
  cases hget : Table.get s.curves n with
  | none => exact hs.counted.notReady fun c hcurve => by simp [hget] at hcurve
  | some c =>
    rw [← hs.counted.curveUse n c hget]
    simpa [State.curveUse, hget] using hfree

/-- R51, R53: a set that is LOADING is named by no work. -/
theorem UsesCounted.loading (hs : UsesCounted s) {n : Nat} {c : CurveSet} (hc : Table.get s.curves n = some c)
    (hready : c.ready = false) : s.works.countP (Work.uses n) = 0 ∧ c.use = 0 := by
  have hnone : s.works.countP (Work.uses n) = 0 := hs.counted.notReady fun d hd => by
    rw [hc] at hd
    cases hd
    exact hready
  exact ⟨hnone, (hs.counted.curveUse n c hc).trans hnone⟩

/-- With no LIVE job, tables whose counts are 0. -/
theorem UsesCounted.of_noJobs (hlive : t.jobs.live = []) (hplanes : ∀ k p, Table.get t.planes k = some p → p.use = 0)
    (hcurves : ∀ n c, Table.get t.curves n = some c → c.use = 0) (hpwf : Table.wf t.planes)
    (hcwf : Table.wf t.curves) : UsesCounted t :=
  .of_counted (.of_none hplanes hcurves hpwf hcwf) (by rw [State.works, hlive]; rfl) rfl rfl fun _ => rfl

/-- With no LIVE job every count is 0. -/
theorem UsesCounted.zero (hs : UsesCounted s) (hlive : s.jobs.live = []) :
    (∀ k p, Table.get s.planes k = some p → p.use = 0) ∧ (∀ n c, Table.get s.curves n = some c → c.use = 0) := by
  have hnone : s.works = [] := by rw [State.works, hlive]; rfl
  have hcounted := hs.counted
  rw [hnone] at hcounted
  exact ⟨hcounted.planeUse, hcounted.curveUse⟩

/-- R44: the REEL descriptors become UNDEFINED while no job is LIVE. -/
theorem UsesCounted.dropReel (hs : UsesCounted s) (hlive : s.jobs.live = []) (htlive : t.jobs.live = [])
    (hplanes : t.planes = dropReelPlanes s.planes) (hcurves : t.curves = s.curves) : UsesCounted t := by
  obtain ⟨hp, hc⟩ := hs.zero hlive
  refine .of_noJobs htlive (fun k p h => ?_) (hcurves ▸ hc) (hplanes ▸ hs.planesWf.filter _) (hcurves ▸ hs.curvesWf)
  rw [hplanes] at h
  exact hp k p (Table.get_of_sublist List.filter_sublist hs.planesWf h)

/-- R23: Soft Reset leaves no job and no count. -/
theorem UsesCounted.softReset (hs : UsesCounted s) : UsesCounted s.softReset := by
  have hplanes : s.softReset.planes = s.planes.map fun e => (e.1, { e.2 with use := 0 }) := by
    simp [State.softReset, State.softResetLink, State.softResetBlocks, State.dropJobs]
  have hcurves : s.softReset.curves = s.curves.map fun e => (e.1, { e.2 with use := 0 }) := by
    simp [State.softReset, State.softResetLink, State.softResetBlocks, State.dropJobs]
  refine .of_noJobs rfl (fun k p h => ?_) (fun n c h => ?_) ?_ ?_
  · rw [hplanes] at h
    obtain ⟨e, -, hpair⟩ := List.mem_map.1 (Table.mem_of_get h)
    cases hpair
    rfl
  · rw [hcurves] at h
    obtain ⟨e, -, hpair⟩ := List.mem_map.1 (Table.mem_of_get h)
    cases hpair
    rfl
  · rw [hplanes]; exact Table.wf_map hs.planesWf fun e => { e.2 with use := 0 }
  · rw [hcurves]; exact Table.wf_map hs.curvesWf fun e => { e.2 with use := 0 }

/-- The counts through the frame cycle. -/
theorem usesCounted_cycle : CycleKeeps (fun _ => True) UsesCounted := by
  have counted : ∀ s t : State, UsesCounted s → HeadCounted s t → t.planes = s.planes → t.curves = s.curves →
      t.reel = s.reel → UsesCounted t := fun s t hs h hp hc hr => hs.congr_works h.works hp hc hr
  constructor
  case running => trivial
  case active => exact fun _ _ _ => trivial
  case endJob => exact fun s o j h hs => hs.endJob h o
  case spoil => exact fun s c l ch _ hs => counted s _ hs (spoil_headCounted ..) (by simp) (by simp) (by simp)
  case countBlank => exact fun s _ hs => counted s _ hs (countBlank_headCounted s) (by simp) (by simp) (by simp)
  case countFrame => exact fun s _ hs => counted s _ hs (countFrame_headCounted s) (by simp) (by simp) (by simp)
  case suspectEnd =>
    intro s ch _ hs
    have hlogged : UsesCounted (s.logSuspect ch) :=
      counted s _ hs (logSuspect_headCounted s ch) (by simp) (by simp) (by simp)
    have hdone := completeHead_keeps (P := UsesCounted) (fun _ o _ h hu => hu.endJob h o) hlogged
    exact hdone.congr (by simp [State.suspectEnd]) (by simp [State.suspectEnd]) (by simp [State.suspectEnd])
      (by simp [State.suspectEnd])
  all_goals
    intros
    rename_i hs
    exact hs.congr (by simp) (by simp) (by simp) (by simp)

/-- Every piece of work keeps the counts. -/
theorem usesCounted_keeps : Keeps UsesCounted := by
  have K := usesCounted_cycle
  constructor
  case acceptJob => exact fun s p _ hc hs => hs.acceptJob hc
  case cancel => exact fun s tag j h hs => hs.endJob (.of_find h) _
  case definePlane => exact fun s sel x base limit width _ _ hc hs => hs.definePlane hc
  case undefinePlane => exact fun s x _ hc hs => hs.undefinePlane hc
  case rewindPlane =>
    intro s x _ _ hs
    refine hs.samePlanes (fun k => ?_) (Table.wf_modify hs.planesWf x.wire fun p => { p with fill := 0 }) rfl rfl rfl rfl
    rw [Table.get_modify]
    split
    · rw [Option.map_map]; rfl
    · rfl
  case beginCurve =>
    intro s n _ hc hs
    refine hs.changeCurve (hs.freeCurve hc) (fun m hm => ?_) (fun c h => ?_) (Table.wf_put hs.curvesWf _ _)
    · rw [Table.get_put, if_neg hm.symm]
    · rw [Table.get_put, if_pos rfl] at h
      cases h
      rfl
  case curveData =>
    intro s n ch es hloading hs
    cases hget : Table.get s.curves n with
    | none => simp [hget] at hloading
    | some c =>
      obtain ⟨hnone, huse⟩ := hs.loading hget (by simpa [hget] using hloading)
      refine hs.changeCurve hnone (fun m hm => ?_) (fun d h => ?_) (Table.wf_modify hs.curvesWf n _)
      · rw [Table.get_modify, if_neg hm.symm]
      · rw [Table.get_modify, if_pos rfl, hget] at h
        cases h
        exact huse
  case commitCurve =>
    intro s n c hget hready hs
    obtain ⟨hnone, huse⟩ := hs.loading hget hready
    refine hs.changeCurve hnone (fun m hm => ?_) (fun d h => ?_) (Table.wf_put hs.curvesWf _ _)
    · rw [Table.get_put, if_neg hm.symm]
    · rw [Table.get_put, if_pos rfl] at h
      cases h
      exact huse
  case discardCurve =>
    intro s n hc hs
    refine hs.changeCurve (hs.freeCurve hc) (fun m hm => ?_) (fun c h => ?_) (Table.wf_erase hs.curvesWf n)
    · rw [Table.get_erase, if_neg hm.symm]
    · rw [Table.get_erase, if_pos rfl] at h
      cases h
  case between => exact fun s h0 hr hs => K.between h0 hr hs
  case passBlank => exact fun s h0 hs => K.passBlank h0 hs
  case cleanEnd => exact fun s h0 hx hs => K.cleanEnd h0 hx hs
  case spoil => exact K.spoil
  case fault => exact fun s c hs => K.fault (hs.congr (by simp) (by simp) (by simp) (by simp))
  case openReel =>
    intro s p hc hs
    have hclosed : s.reel.isSome = false := hc (s.reel.isSome, .reelOpen, 0) (by simp [openReelChecks])
    have hlive : s.jobs.live = [] := hs.noReel (by simpa using hclosed)
    exact hs.dropReel hlive hlive rfl rfl
  case closeReel =>
    intro s _ _ hs
    obtain ⟨hflushed, hlive⟩ := flush_keeps (P := UsesCounted) (fun _ o _ h hu => hu.endJob h o) hs
    exact hflushed.dropReel hlive hlive rfl rfl
  case interlockOpens =>
    exact fun s l _ hs => K.interlockOpens (hs.congr (by simp) (by simp) (by simp) (by simp))
  case laserReady =>
    exact fun s a b hs => K.laserReady (fun s hs => hs.congr (by simp) (by simp) (by simp) (by simp))
      (hs.congr rfl rfl rfl rfl)
  case clockLost =>
    exact fun s ch hs => K.clockLost (hs.congr (by simp) (by simp) (by simp) (by simp))
      (fun _ _ _ hs => hs.congr rfl rfl rfl rfl) hs
  case beginExposing =>
    exact fun s _ _ hs => hs.congr_works (beginExposing_headCounted s).works (by simp) (by simp) (by simp)
  case writeComplete =>
    intro s hs
    unfold writeComplete
    split
    · rename_i c _
      have hwritten : UsesCounted { s with
          arbiter := { s.arbiter with access := none, lastServed := .planeWriter }
          store := Memory.writeLine s.store c.slot c.words } := hs.congr rfl rfl rfl rfl
      exact (hwritten.noteWritten c.sel).congr (by simp) (by simp) (by simp) (by simp)
    all_goals exact hs
  case endTransmission =>
    exact fun s x h0 _ hs => endTransmission_keeps h0 (fun _ _ hs => hs.congr rfl rfl rfl rfl)
      (fun _ hs => hs.congr rfl rfl rfl rfl) (fun _ hs => hs.congr_works rfl rfl rfl rfl)
      (fun _ _ hu => hu.softReset) hs
  case reset =>
    exact fun s _ => .of_noJobs rfl (by simp [State.afterReset]) (by simp [State.afterReset]) .nil .nil
  all_goals
    intros
    rename_i hs
    exact hs.congr (by simp) (by simp) (by simp) (by simp)

end Steps

/-! ## The obligation -/

/-- Settles O58: counts and works change together, where a job is accepted or ends; descriptors and sets change where no
job names them, or keep their counts. -/
theorem stepKeepsUsesCounted : Obligations.StepKeepsUsesCounted :=
  fun _ _ hs h => usesCounted_keeps.step (fun _ _ hs => hs.congr rfl rfl rfl rfl) hs h

end Sys2Proof.Machine
end

section
/-! The commands as a whole: a step carries out the front of the queue; every command answers a next state, leaves the
queue, and but for a completed write and hardware reset leaves the frame store. -/

namespace Sys2Proof.Machine

section Commands

variable {s t : State} {f : State → State}

/-- What every command but two leaves: the queue, and what the frame store's lines read as rests on. -/
structure Steady (s t : State) : Prop where
  pending : t.pending = s.pending
  store : t.store = s.store
  freeEpoch : t.freeEpoch = s.freeEpoch

theorem Steady.refl (s : State) : Steady s s := ⟨rfl, rfl, rfl⟩

theorem Steady.trans {u : State} (h : Steady s t) (h' : Steady t u) : Steady s u :=
  ⟨h'.pending.trans h.pending, h'.store.trans h.store, h'.freeEpoch.trans h.freeEpoch⟩

/-- A command that answers a next state and leaves the queue and the frame store. -/
def Step.steady (s : State) (o : Step) : Prop := ∃ t, o = .next t ∧ Steady s t

/-! ## How each kind of command is shown steady -/

theorem event_steady (h : Steady s (f s)) : Step.steady s (event f s) := by
  refine ⟨_, event_eq f s, ?_⟩
  split
  · exact .refl s
  · exact h

theorem arrive_steady (s : State) (m : Message) : Steady s (s.arrive m) := by constructor <;> simp

theorem request_steady {i : Instr} (h : ∀ u, Steady u (f u)) : Step.steady s (carryOut i f s) := by
  refine event_steady ?_
  rcases request_cases i f s with hx | ⟨-, hx⟩ | ⟨m, -, hx | ⟨-, -, hx⟩⟩ <;> rw [hx]
  · exact .refl s
  · exact h s
  · exact arrive_steady s m
  · exact (arrive_steady s m).trans (h _)

theorem examine_steady {checks : List Check} (h : Steady s (f s)) : Steady s (s.examine checks f) := by
  rcases examine_cases checks f s with ⟨r, -, hx⟩ | ⟨-, hx⟩ <;> rw [hx]
  · constructor <;> simp
  · exact h

theorem withPlane_steady {sel : Half} {block : Selector → State → State} (h : ∀ x, Steady s (block x s)) :
    Steady s (withPlane sel block s) := by
  unfold withPlane
  split
  · constructor <;> simp
  · split
    · constructor <;> simp
    · exact h _

theorem withSet_steady {set : Byte} {block : Nat → State → State} (h : ∀ n, Steady s (block n s)) :
    Steady s (withSet set block s) := by
  unfold withSet
  split
  · constructor <;> simp
  · exact h _

theorem lineChange_steady {levels : Lines} (h : ∀ u, Steady u (f u)) : Step.steady s (lineChange levels f s) := by
  rcases lineChange_cases levels f s with ⟨-, hx⟩ | ⟨-, -, hx⟩ | ⟨-, -, hx⟩
  · exact ⟨_, hx, rfl, rfl, rfl⟩
  · exact ⟨_, hx, .refl s⟩
  · exact ⟨_, hx, .trans (by constructor <;> simp) (h _)⟩

/-! ## The pieces of work that branch -/

theorem fault_steady (s : State) (c : TransportCause) : Steady s (s.enterTransportFault c) := by constructor <;> simp

theorem actOnStop_steady (s : State) : Steady s s.actOnStop := by
  unfold State.actOnStop
  split
  · constructor <;> simp
  · split
    · exact .refl s
    all_goals split <;> constructor <;> simp

theorem stopRun_steady (s : State) (m : StopMode) : Steady s (s.stopRun m) := by
  obtain ⟨hpending, hstore, hepoch⟩ :=
    actOnStop_steady { s with run := { s.run with pendingStop := s.run.pendingStop.stronger m } }
  exact ⟨hpending, hstore, hepoch⟩

theorem endTransmission_steady (s : State) (x : Transmission) : Steady s (s.endTransmission x) := by
  unfold State.endTransmission
  dsimp only
  split
  · unfold State.endReply
    dsimp only
    split
    · exact ⟨by simp, by simp, by simp⟩
    · exact ⟨rfl, rfl, rfl⟩
  all_goals exact ⟨rfl, rfl, rfl⟩

/-- The scan is none of it. -/
theorem Steady.of_scan {x : Scan} (h : Steady { s with scan := x } t) : Steady s t :=
  ⟨h.pending, h.store, h.freeEpoch⟩

theorem loseLock_steady (s : State) (cause : LossCause) : Steady s (s.loseLock cause) := by constructor <;> simp

theorem facetSync_steady (s : State) (facet elapsed : Nat) : Steady s (s.facetSync facet elapsed) := by
  constructor <;> simp

theorem supervise_steady (s : State) (elapsed m : Nat) : Steady s (s.supervise elapsed m) := by
  unfold State.supervise
  extract_lets k g s1 good misses s2
  split
  · exact .of_scan (loseLock_steady _ _)
  · split
    · exact .of_scan (loseLock_steady _ _)
    · exact .of_scan (facetSync_steady _ _ _)

theorem sosPulse_steady (s : State) (elapsed : Nat) : Steady s (sosPulse elapsed s) := by
  unfold sosPulse
  dsimp only
  split
  · exact ⟨rfl, rfl, rfl⟩
  · exact ⟨rfl, rfl, rfl⟩
  · split <;> exact ⟨rfl, rfl, rfl⟩
  · exact .of_scan (supervise_steady _ _ _)

theorem failCalibration_steady (s : State) (o : CalOutcome) : Steady s (s.failCalibration o) := ⟨rfl, rfl, rfl⟩

theorem calibrationIndex_steady (s : State) (c : Calibration) : Steady s (s.calibrationIndex c) := by
  unfold State.calibrationIndex
  dsimp only
  split
  · split <;> exact ⟨rfl, rfl, rfl⟩
  · split
    · unfold State.judgeCalibration
      split
      · exact failCalibration_steady _ _
      · split
        · exact failCalibration_steady _ _
        · exact ⟨rfl, rfl, rfl⟩
    · exact ⟨rfl, rfl, rfl⟩

theorem indexPulse_steady (s : State) : Steady s (indexPulse s) := by
  unfold indexPulse
  split
  · exact .refl s
  · exact .refl s
  · split
    · exact calibrationIndex_steady _ _
    · exact .refl s
  · split
    · exact ⟨rfl, rfl, rfl⟩
    · constructor <;> simp

theorem calibrationDeadline_steady (s : State) (d : Deadline) : Steady s (calibrationDeadline d s) := by
  unfold calibrationDeadline
  split
  · exact failCalibration_steady _ _
  all_goals exact .refl s

theorem perfPulse_steady (s : State) : Steady s (perfPulse s) := by
  unfold perfPulse
  dsimp only
  split
  · split <;> exact ⟨rfl, rfl, rfl⟩
  · exact .refl s

theorem register_steady (s : State) : Steady s s.register := by
  unfold State.register
  dsimp only
  split <;> constructor <;> simp

theorem laserReadyEffect_steady (s : State) (old new : Rgb Bool) : Steady s (laserReadyEffect old new s) := by
  unfold laserReadyEffect
  dsimp only
  split <;> constructor <;> simp

theorem clockLost_steady (s : State) (ch : Channel) : Steady s (clockLost ch s) := by
  unfold clockLost
  dsimp only
  split
  · exact .refl s
  · constructor <;> simp

theorem powerReading_steady (s : State) (edges : Rgb (List ClockEdge)) : Steady s (powerReading edges s) := by
  unfold powerReading
  split
  · dsimp only
    split <;> constructor <;> simp
  all_goals exact .refl s

theorem leadInExpiry_steady (s : State) : Steady s (leadInExpiry s) := by
  unfold leadInExpiry
  split
  · split
    · constructor <;> simp
    · split <;> constructor <;> simp
  · exact .refl s

theorem cleanEnd_steady (s : State) : Steady s s.cleanEnd := by
  unfold State.cleanEnd
  split <;> constructor <;> simp [State.suspectEnd]

/-! ## The commands one by one -/

/-- No command but the two stops the machine, touches the queue or changes the frame store. -/
theorem exec_steady {c : Instr} (s : State) (hwrite : c ≠ .lineDataWriteComplete) (hreset : c ≠ .hardwareReset) :
    Step.steady s (exec c s) := by
  cases c <;> simp only [exec]
  case lineDataWriteComplete => exact absurd rfl hwrite
  case hardwareReset => exact absurd rfl hreset
  case resetRelease =>
    refine ⟨_, rfl, ?_⟩
    split <;> exact ⟨rfl, rfl, rfl⟩
  case queueJob =>
    refine request_steady fun u => examine_steady ?_
    split <;> constructor <;> simp
  case cancelJob =>
    refine request_steady fun u => ?_
    unfold cancelJobBlock
    split
    · constructor <;> simp
    · split <;> constructor <;> simp
  case queryJob =>
    refine request_steady fun u => ?_
    unfold queryJobBlock
    split <;> constructor <;> simp
  case definePlane | undefinePlane | rewindPlane | lineData =>
    exact request_steady fun u => withPlane_steady fun x => examine_steady (by constructor <;> simp)
  case queryPlane => exact request_steady fun u => withPlane_steady fun x => by constructor <;> simp
  case beginCurve | curveData | discardCurve =>
    exact request_steady fun u => withSet_steady fun n => examine_steady (by constructor <;> simp)
  case commitCurve =>
    refine request_steady fun u => withSet_steady fun n => ?_
    split
    · constructor <;> simp
    · exact examine_steady (by constructor <;> simp)
  case queryCurve => exact request_steady fun u => withSet_steady fun n => by constructor <;> simp
  case setDriveOptions | openReel | registerGate | clearTransport | setTransportTiming | setScanGeometry |
      loadFacetCorrections | calibrateScan | enableLasers | disableLasers | setPowerTargets | setNotices =>
    exact request_steady fun u => examine_steady ⟨rfl, rfl, rfl⟩
  case readMonitor | getStatus | softReset => exact request_steady fun u => ⟨rfl, rfl, rfl⟩
  case takeSpoilEntries => exact request_steady fun u => examine_steady (by constructor <;> simp)
  case startRun => exact request_steady fun u => examine_steady (by constructor <;> simp [State.beginRun])
  case stopRun =>
    exact request_steady fun u => examine_steady (stopRun_steady _ _)
  case pauseRun =>
    refine request_steady fun u => examine_steady ?_
    unfold State.pauseRun
    dsimp only
    split <;> constructor <;> simp
  case resumeRun =>
    refine request_steady fun u => ?_
    unfold resumeRunBlock
    dsimp only
    split
    · constructor <;> simp
    · constructor <;> simp
    · exact examine_steady ⟨rfl, rfl, rfl⟩
    · exact examine_steady (by constructor <;> simp [State.resume])
  case closeReel => exact request_steady fun u => examine_steady (by constructor <;> simp [State.closeReel])
  case advanceFrames => exact request_steady fun u => examine_steady (by constructor <;> simp)
  case messageReceived bytes =>
    obtain ⟨l, hl⟩ := s.receiveBytes_frame bytes
    exact event_steady (hl ▸ ⟨rfl, rfl, rfl⟩)
  case interByteGapTimeout =>
    refine event_steady ?_
    unfold gapTimeout
    split <;> constructor <;> simp
  case transmitStart => exact event_steady (by constructor <;> simp)
  case messageTransmitted =>
    refine event_steady ?_
    unfold messageTransmitted
    split
    · exact endTransmission_steady _ _
    · exact .refl s
  case sosPulse => exact event_steady (sosPulse_steady _ _)
  case indexPulse => exact event_steady (indexPulse_steady _)
  case calibrationIndexDeadline | sosGapWatchdogExpiry => exact event_steady (calibrationDeadline_steady _ _)
  case noSignalWatchdogExpiry =>
    refine event_steady ?_
    unfold noSignalExpiry
    split <;> constructor <;> simp
  case perfPulse => exact event_steady (perfPulse_steady _)
  case pullDownTimerExpiry =>
    refine event_steady ?_
    unfold pullDownTimerExpiry
    split <;> constructor <;> simp
  case settleTimerExpiry =>
    refine event_steady ?_
    unfold settleTimerExpiry
    split
    · split
      · exact register_steady s
      · exact fault_steady s _
    · exact .refl s
  case filmPresentChange =>
    refine lineChange_steady fun u => ?_
    unfold filmPresentEffect
    split <;> constructor <;> simp
  case tensionOkChange =>
    refine lineChange_steady fun u => ?_
    unfold tensionOkEffect
    split <;> constructor <;> simp
  case gateClosedChange =>
    refine lineChange_steady fun u => ?_
    unfold gateClosedEffect
    split <;> constructor <;> simp
  case endSensorChange => exact lineChange_steady fun u => .refl u
  case interlockChange =>
    refine lineChange_steady fun u => ?_
    unfold interlockEffect
    split <;> constructor <;> simp
  case laserReadyChange => exact lineChange_steady fun u => laserReadyEffect_steady _ _ _
  case monitorClockLost => exact event_steady (clockLost_steady _ _)
  case monitorClockReturn => exact event_steady (by constructor <;> simp)
  case powerReading => exact event_steady (powerReading_steady _ _)
  case leadInTimerExpiry => exact event_steady (leadInExpiry_steady _)
  case prefetchReadComplete => exact event_steady (by constructor <;> simp)
  case frameCleanEnd =>
    refine event_steady ?_
    unfold frameCleanEnd
    split
    · exact cleanEnd_steady s
    · exact .refl s

/-- The end of a Line Data write answers a next state and leaves the queue. -/
theorem exec_lineDataWriteComplete_next (s : State) :
    ∃ t, exec .lineDataWriteComplete s = .next t ∧ t.pending = s.pending := by
  refine ⟨_, event_eq writeComplete s, ?_⟩
  split <;> simp

end Commands

/-! ## The obligations -/

/-- Settles O1: each part is how `step` is defined. -/
theorem stepCarriesOutFront : Obligations.StepCarriesOutFront :=
  ⟨fun _ _ _ => rfl, fun _ => rfl⟩

/-- Settles O2: a command that is neither of the two is steady, and a line reads as before where store and epoch are the
same; the two go on and leave the queue. -/
theorem everyCommandGoesOn : Obligations.EveryCommandGoesOn := by
  intro c s
  by_cases hwrite : c = .lineDataWriteComplete
  · obtain ⟨t, ht, hpending⟩ := exec_lineDataWriteComplete_next s
    exact ⟨t, hwrite ▸ ht, hpending, fun h => absurd hwrite h⟩
  by_cases hreset : c = .hardwareReset
  · subst hreset
    exact ⟨_, rfl, rfl, fun _ h => absurd rfl h⟩
  obtain ⟨t, ht, hpending, hstore, hepoch⟩ := exec_steady s hwrite hreset
  exact ⟨t, ht, hpending, fun _ _ slot width => by rw [hstore, hepoch]⟩

end Sys2Proof.Machine
end

section
/-! Hardware reset: the state that the assertion of the RESET pin leaves, what commands do while it is asserted, its
release, and the invariants in the state after reset. -/

namespace Sys2Proof.Machine

section Reset

variable {s : State}

/-- R188: while the RESET pin is asserted an event has no effect. -/
theorem event_inReset (h : s.resetPin = true) (f : State → State) : event f s = .next s := by
  rw [event_eq, if_pos h]

/-- R188: out of reset an event takes effect. -/
theorem event_outOfReset (h : s.resetPin = false) (f : State → State) : event f s = .next (f s) := by
  rw [event_eq, if_neg (by simp [h])]

/-- R134, R188: while the RESET pin is asserted the levels follow the lines and the transport FILM_PRESENT. -/
theorem lineChange_inReset (h : s.resetPin = true) (levels : Lines) (f : State → State) :
    lineChange levels f s =
      .next { s with pins := ⟨levels, Lines.none⟩, transport := Transport.reset levels.filmPresent } := by
  rw [lineChange, if_pos h]

/-- The commands that act while the RESET pin is asserted: the pin itself and the changes of a line. -/
def actsInReset : Instr → Bool
  | .hardwareReset | .resetRelease .. | .filmPresentChange .. | .tensionOkChange .. | .gateClosedChange ..
  | .endSensorChange .. | .interlockChange .. | .laserReadyChange .. => true
  | _ => false

/-- R188: every other command is an event, and has no effect. -/
theorem exec_inReset (h : s.resetPin = true) {c : Instr} (hc : actsInReset c = false) : exec c s = .next s := by
  cases c
  case hardwareReset | resetRelease | filmPresentChange | tensionOkChange | gateClosedChange | endSensorChange |
      interlockChange | laserReadyChange => cases hc
  all_goals exact event_inReset h _

theorem exec_resetRelease (rate1 rate0 : Bool) (s : State) :
    exec (.resetRelease rate1 rate0) s =
      .next (if s.resetPin then { s with resetPin := false, link := { s.link with rate := rateOf rate1 rate0 } } else s) :=
  rfl

/-- R176: the rate that the straps give. -/
theorem rateOf_eq (rate1 rate0 : Bool) :
    rateOf rate1 rate0 = if rate1 then .mbit200 else if rate0 then .mbit100 else .mbit50 := by
  cases rate1 <;> cases rate0 <;> rfl

/-- R188: the state that the assertion of the RESET pin leaves. -/
theorem exec_hardwareReset (s : State) :
    exec .hardwareReset s =
      .next (State.afterReset true s.link.rate s.link.hrdy s.pins.levels (s.freeEpoch + 1) s.pending) := rfl

end Reset

/-! ## The obligations -/

/-- Settles O53: the state after reset field by field; release by the level of the pin; and while it is asserted the
split of the commands by `actsInReset`. -/
theorem hardwareResetSetsEveryBlock : Obligations.HardwareResetSetsEveryBlock := by
  intro s
  refine ⟨⟨_, exec_hardwareReset s, ?_⟩, ?_, ?_, ?_, ?_⟩
  · refine ⟨rfl, rfl, rfl, rfl, rfl, rfl, rfl, rfl, rfl, rfl, rfl, rfl, rfl, rfl, rfl, rfl, rfl, rfl, rfl, rfl, rfl,
      rfl, rfl, rfl, ?_, rfl, rfl, rfl, rfl, rfl, rfl, rfl, rfl, rfl⟩
    intro ch
    cases ch <;> exact ⟨rfl, rfl, rfl, rfl, rfl, rfl, rfl, rfl, rfl⟩
  · intro rate1 rate0 h
    rw [exec_resetRelease, if_pos h, rateOf_eq]
  · intro rate1 rate0 h
    rw [exec_resetRelease, if_neg (by simp [h])]
  · intro h c hreset hrelease hfilm htension hgate hend hinterlock hready
    refine exec_inReset h ?_
    cases c
    case hardwareReset => exact absurd rfl hreset
    case resetRelease => exact absurd rfl (hrelease _ _)
    case filmPresentChange => exact absurd rfl (hfilm _)
    case tensionOkChange => exact absurd rfl (htension _)
    case gateClosedChange => exact absurd rfl (hgate _)
    case endSensorChange => exact absurd rfl (hend _)
    case interlockChange => exact absurd rfl (hinterlock _)
    case laserReadyChange => exact absurd rfl (hready _)
    all_goals rfl
  · intro h level levels
    exact ⟨lineChange_inReset h _ _, lineChange_inReset h _ _, lineChange_inReset h _ _, lineChange_inReset h _ _,
      lineChange_inReset h _ _, lineChange_inReset h _ _⟩

/-- Settles O54: in the state after reset nothing is listed, nothing runs, and every trim is 4096. -/
theorem invariantsHoldAtReset : Obligations.InvariantsHoldAtReset := by
  refine ⟨?drive, ?trims, ?position, ?log, ?jobs, ?uses, ?planes, ?fills, Nat.zero_le _, ?queue, Memory.wf_reset⟩
  case drive =>
    exact ⟨fun h => (nomatch h), fun h => (nomatch h), fun h => (nomatch h), fun h => absurd rfl h, fun _ => rfl⟩
  case trims => intro ch; cases ch <;> decide
  case position => exact ⟨fun r h => (nomatch h), fun r h => (nomatch h)⟩
  case log => exact ⟨by decide, fun h => absurd rfl h, by decide, fun h => absurd rfl h⟩
  case jobs => exact ⟨by decide, List.nodup_nil⟩
  case uses =>
    have hplanes : ∀ k p, Table.get State.reset.planes k = some p → p.use = 0 := fun _ _ h => nomatch h
    have hcurves : ∀ n c, Table.get State.reset.curves n = some c → c.use = 0 := fun _ _ h => nomatch h
    exact .of_noJobs rfl hplanes hcurves Table.wf_nil Table.wf_nil
  case planes => exact ⟨.nil, fun e h => (nomatch h), fun e h => (nomatch h), Table.wf_nil⟩
  case fills =>
    have hnone : ∀ w, ¬ State.reset.writing w := fun w h => h.elim (fun h => nomatch h) (fun h => nomatch h)
    exact { write := fun w h => absurd h (hnone w), series := fun h => (nomatch h), exclusive := fun h => (nomatch h)
            one := fun w h => (nomatch h), reply := fun r m h => (nomatch h), fill := fun e h => (nomatch h)
            room := fun w h => absurd h (hnone w), sorted := Table.wf_nil }
  case queue => exact ⟨by decide, rfl, Nat.le_refl _, fun a h => (nomatch h)⟩

end Sys2Proof.Machine
end

section
/-! The wire coding of the host requests: every well-formed request is read back from the message it is sent as, that
message has the length its type asks for, and the link's examination follows the type-code table. -/

namespace Sys2Proof.Machine

section Readers

variable {rt : Byte}

/-! ## Each reader reads back the payload of its requests (R190) -/

theorem readHalf_bytes (mk : Half → Instr) (h : Half) : readHalf mk (halfBytes h) = some (mk h) := by
  simp [readHalf, halfBytes]

theorem readQueueJob_bytes (p : QueueJobItems) :
    readQueueJob rt (halfBytes p.tag ++ [p.kind, p.presence] ++ rgbHalfBytes p.selectors ++ [p.curveSet] ++
      rgbHalfBytes p.flash ++ [p.repeatCount, p.release]) = some (.queueJob rt p) := by
  simp [readQueueJob, halfBytes, rgbHalfBytes]

theorem readDefinePlane_bytes (sel base limit width : Half) :
    readDefinePlane rt (halfBytes sel ++ halfBytes base ++ halfBytes limit ++ halfBytes width) =
      some (.definePlane rt sel base limit width) := by
  simp [readDefinePlane, halfBytes]

theorem readLineData_bytes {sel line count : Half} {words : List Half} (h : words.length = count.toNat) :
    readLineData rt (halfBytes sel ++ halfBytes line ++ halfBytes count ++ words.flatMap halfBytes) =
      some (.lineData rt sel line count words) := by
  simp [readLineData, halfBytes, h]

theorem readCurveData_bytes {set channel : Byte} {first count : Half} {entries : List WireEntry}
    (h : entries.length = count.toNat) :
    readCurveData rt ([set, channel] ++ halfBytes first ++ halfBytes count ++ entries.flatMap entryBytes) =
      some (.curveData rt set channel first count entries) := by
  simp [readCurveData, halfBytes, h]

theorem readCorrections_bytes {count : Byte} {values : List Half} (h : values.length = count.toNat) :
    readCorrections rt ([count] ++ values.flatMap halfBytes) = some (.loadFacetCorrections rt count values) := by
  simp [readCorrections, h]

theorem readStartRun_bytes (mode : Byte) (leadIn : Half) :
    readStartRun rt ([mode] ++ halfBytes leadIn) = some (.startRun rt mode leadIn) := by
  simp [readStartRun, halfBytes]

theorem readOpenReel_bytes (p : OpenReelItems) :
    readOpenReel rt (halfBytes p.capacity ++ halfBytes p.start ++ [p.perforations] ++ halfBytes p.lines ++
      halfBytes p.width ++ halfBytes p.offset) = some (.openReel rt p) := by
  simp [readOpenReel, halfBytes]

theorem readTransportTiming_bytes (timeout : Half) (settle : Byte) :
    readTransportTiming rt (halfBytes timeout ++ [settle]) = some (.setTransportTiming rt timeout settle) := by
  simp [readTransportTiming, halfBytes]

theorem readGeometry_bytes (p : GeometryItems) :
    readGeometry rt ([p.facets] ++ quadBytes p.period ++ halfBytes p.pixelPeriod ++ halfBytes p.tolerance ++
      [p.missLimit, p.revolutions]) = some (.setScanGeometry rt p) := by
  simp [readGeometry, halfBytes, quadBytes]

theorem readPowerTargets_bytes (p : PowerItems) :
    readPowerTargets rt
      (halfBytes p.channels.red.target ++ halfBytes p.channels.red.soft ++ halfBytes p.channels.red.hard ++
      halfBytes p.channels.green.target ++ halfBytes p.channels.green.soft ++ halfBytes p.channels.green.hard ++
      halfBytes p.channels.blue.target ++ halfBytes p.channels.blue.soft ++ halfBytes p.channels.blue.hard ++
      [p.hardCount] ++ halfBytes p.osr) = some (.setPowerTargets rt p) := by
  simp [readPowerTargets, halfBytes]

/-! ## Messages -/

variable {i : Instr} {m : Message}

/-- R190: a well-formed request is read back from its message. -/
theorem decode_encode (hw : i.wellFormed = true) (h : i.encode = some m) : m.decode = some i := by
  cases i
  case lineData =>
    cases h
    simp only [Instr.wellFormed, Bool.and_eq_true, decide_eq_true_eq] at hw
    exact readLineData_bytes hw.1
  case curveData =>
    cases h
    simp only [Instr.wellFormed, Bool.and_eq_true, decide_eq_true_eq] at hw
    exact readCurveData_bytes hw.1
  case loadFacetCorrections =>
    cases h
    exact readCorrections_bytes (of_decide_eq_true hw)
  case queueJob => cases h; exact readQueueJob_bytes _
  case definePlane => cases h; exact readDefinePlane_bytes _ _ _ _
  case startRun => cases h; exact readStartRun_bytes _ _
  case openReel => cases h; exact readOpenReel_bytes _
  case setTransportTiming => cases h; exact readTransportTiming_bytes _ _
  case setScanGeometry => cases h; exact readGeometry_bytes _
  case setPowerTargets => cases h; exact readPowerTargets_bytes _
  case cancelJob | queryJob | undefinePlane | rewindPlane | queryPlane | resumeRun =>
    cases h; exact readHalf_bytes _ _
  case beginCurve | commitCurve | discardCurve | queryCurve | setDriveOptions | stopRun | registerGate |
      advanceFrames | enableLasers | disableLasers | takeSpoilEntries | setNotices | pauseRun | closeReel |
      clearTransport | calibrateScan | readMonitor | getStatus | softReset =>
    cases h; rfl
  all_goals cases h

open Laws.Requests in
/-- R181: the message of a well-formed request has the length its type asks for. -/
theorem encode_length (i : Instr) : Statement i := by
  cases i
  case queueJob => apply queueJob
  case cancelJob => apply cancelJob
  case queryJob => apply queryJob
  case definePlane => apply definePlane
  case undefinePlane => apply undefinePlane
  case rewindPlane => apply rewindPlane
  case lineData => apply lineData
  case queryPlane => apply queryPlane
  case beginCurve => apply beginCurve
  case curveData => apply curveData
  case commitCurve => apply commitCurve
  case discardCurve => apply discardCurve
  case queryCurve => apply queryCurve
  case setDriveOptions => apply setDriveOptions
  case startRun => apply startRun
  case stopRun => apply stopRun
  case pauseRun => apply pauseRun
  case resumeRun => apply resumeRun
  case openReel => apply openReel
  case closeReel => apply closeReel
  case registerGate => apply registerGate
  case advanceFrames => apply advanceFrames
  case clearTransport => apply clearTransport
  case setTransportTiming => apply setTransportTiming
  case setScanGeometry => apply setScanGeometry
  case loadFacetCorrections => apply loadFacetCorrections
  case calibrateScan => apply calibrateScan
  case enableLasers => apply enableLasers
  case disableLasers => apply disableLasers
  case setPowerTargets => apply setPowerTargets
  case readMonitor => apply readMonitor
  case takeSpoilEntries => apply takeSpoilEntries
  case getStatus => apply getStatus
  case setNotices => apply setNotices
  case softReset => apply softReset
  all_goals exact noMessage rfl

/-- R181: the message of a well-formed request passes the link's examination. -/
theorem examineMessage_encode (hw : i.wellFormed = true) (h : i.encode = some m) : examineMessage m = .handed := by
  rw [examineMessage, (encode_length i hw m h).1]
  exact if_pos rfl

end Readers

/-! ## The obligation -/

/-- Settles O49: a case for each request, by the reader of its payload. -/
theorem requestsAreReadBack : Obligations.RequestsAreReadBack :=
  fun _ _ hw h => decode_encode hw h

end Sys2Proof.Machine
end

section
/-! The receiving side of the link: the examination of a request by the type-code table, the reception of a frame byte
by byte, the places of the receive buffer, and how a request command reaches its block. -/

namespace Sys2Proof.Machine

section Examination

variable {m : Message} {n : Nat}

/-! ## The type-code table (R181, R190) -/

/-- R190: the request types of fixed length, each with the length of its payload. -/
def fixedLengths : List (Nat × Nat) :=
  [(0x01, 19), (0x02, 2), (0x03, 2), (0x08, 8), (0x09, 2), (0x0A, 2), (0x0C, 2), (0x10, 1), (0x12, 1), (0x13, 1),
   (0x14, 1), (0x15, 1), (0x18, 3), (0x19, 1), (0x1A, 0), (0x1B, 2), (0x20, 11), (0x21, 0), (0x22, 1), (0x23, 1),
   (0x24, 0), (0x25, 3), (0x28, 11), (0x2A, 0), (0x30, 1), (0x31, 1), (0x32, 21), (0x33, 0), (0x38, 1), (0x3C, 0),
   (0x3D, 1), (0x3E, 0)]

theorem expectedLength_fixed (h : (m.type.toNat, n) ∈ fixedLengths) : expectedLength m = some n := by
  unfold expectedLength
  split <;> simp_all [fixedLengths]

/-- R190: the length of Line Data and of Curve Data follows the count at offset 4. -/
theorem expectedLength_counted {size : Nat} (h : (m.type = 0x0B ∧ size = 2) ∨ (m.type = 0x11 ∧ size = 3)) :
    expectedLength m = some (6 + size * countAt4 m.payload) := by
  rcases h with ⟨htype, rfl⟩ | ⟨htype, rfl⟩ <;> simp [expectedLength, htype]

/-- R190: the length of Load Facet Corrections follows the count at offset 0. -/
theorem expectedLength_corrections (h : m.type = 0x29) : expectedLength m = some (1 + 2 * countAt0 m.payload) := by
  simp [expectedLength, h]

/-- R190: no other type is known. -/
theorem expectedLength_unknown (hfixed : ∀ n, (m.type.toNat, n) ∉ fixedLengths) (hline : m.type ≠ 0x0B)
    (hcurve : m.type ≠ 0x11) (hcorrections : m.type ≠ 0x29) : expectedLength m = none := by
  have hne {x : Byte} (h : m.type ≠ x) : m.type.toNat ≠ x.toNat := fun heq => h (BitVec.eq_of_toNat_eq heq)
  have hline := hne hline
  have hcurve := hne hcurve
  have hcorrections := hne hcorrections
  unfold expectedLength
  split <;> simp_all [fixedLengths]

/-- R190: a payload too short to hold the count at offset 4 counts nothing. -/
theorem countAt4_short {payload : List Byte} (h : payload.length < 6) : countAt4 payload = 0 := by
  unfold countAt4
  split
  · simp at h
    omega
  · rfl

/-! ## The examination of a request (R181) -/

/-- R181: a request of the length its type asks for is handed to its block. -/
theorem examineMessage_handed (h : expectedLength m = some n) (hn : m.payload.length = n) :
    examineMessage m = .handed := by
  simp [examineMessage, h, hn]

/-- R181: a request of another length is refused. -/
theorem examineMessage_badLength (h : expectedLength m = some n) (hn : m.payload.length ≠ n) :
    examineMessage m = .replyPending (.refuse .badLength (if 0xFFFF < n then 0xFFFF else n)) := by
  have hmin : min n 0xFFFF = if 0xFFFF < n then 0xFFFF else n := by split <;> omega
  simp only [examineMessage, h, if_neg hn, hmin]

/-- R181: a request of a type that the link does not know is refused. -/
theorem examineMessage_unknown (h : expectedLength m = none) :
    examineMessage m = .replyPending (.refuse .unknownType m.type.toNat) := by
  simp [examineMessage, h]

end Examination

section Reception

variable {s : State} {m : Message}

/-! ## The receive buffer (R178, R180) -/

/-- R178: a hunting receiver takes no place. -/
theorem places_hunting (h : s.link.receiver = .hunting) : s.link.places = s.link.buffer.length := by
  simp [Link.places, h]

theorem lrdy_iff (s : State) : s.lrdy = true ↔
    s.resetPin = false ∧ s.link.buffer.length + (if s.link.receiver = .hunting then 0 else 1) < 2 := by
  simp [State.lrdy, Link.places, Config.bufferPlaces]

/-- R180: on a free link a message is taken and examined. -/
theorem deliver_free {l : Link} (hcurrent : l.current = none) (hbuffer : l.buffer = []) (m : Message) :
    l.deliver m = { l with current := some ⟨m, examineMessage m⟩ } := by
  simp [Link.deliver, Link.takeNext, hcurrent, hbuffer]

/-- R180: behind a current request a message is held. -/
theorem deliver_behind {l : Link} (h : l.current ≠ none) (m : Message) :
    l.deliver m = { l with buffer := l.buffer ++ [m] } := by
  obtain ⟨c, hc⟩ := Option.ne_none_iff_exists'.1 h
  simp [Link.deliver, Link.takeNext, hc]

/-- R178: delivery neither moves the receiver nor takes a second place. -/
theorem deliver_receiver (l : Link) (m : Message) :
    (l.deliver m).receiver = l.receiver ∧ (l.deliver m).buffer.length ≤ l.buffer.length + 1 := by
  unfold Link.deliver Link.takeNext
  split
  · rename_i next rest _ hbuffer
    have hlength : rest.length + 1 = l.buffer.length + 1 := by
      simpa using (congrArg List.length hbuffer).symm
    exact ⟨rfl, by simp only; omega⟩
  · exact ⟨rfl, by simp⟩
  · exact ⟨rfl, by simp⟩

/-! ## Reception byte by byte (R177 to R179) -/

theorem receiveBytes_append (a b : List Byte) (s : State) :
    s.receiveBytes (a ++ b) = (s.receiveBytes a).receiveBytes b :=
  List.foldl_append

/-- The state with its receiver hunting, as it is. -/
theorem setReceiver_hunting (h : s.link.receiver = .hunting) : s.setReceiver .hunting = s := by
  rw [State.setReceiver, ← h]

/-- R177: bytes without a start byte are passed over. -/
theorem receiveBytes_noStart {bytes : List Byte} (h : s.link.receiver = .hunting) (hno : startByte ∉ bytes) :
    s.receiveBytes bytes = s := by
  induction bytes with
  | nil => rfl
  | cons b bytes ih =>
    obtain ⟨hb, hbytes⟩ := not_or.1 (mt List.mem_cons.2 hno)
    have hbyte : s.receiveByte b = s := by simp [State.receiveByte, h, Ne.symm hb]
    show (s.receiveByte b).receiveBytes bytes = s
    rw [hbyte]
    exact ih hbytes

/-- R179: with both places taken each start byte sets the overrun flag, and the bytes behind it are passed over. -/
theorem receiveBytes_overrun (h : s.link.receiver = .hunting) (hfull : s.link.buffer.length = 2) (bytes : List Byte) :
    (s.setLinkFlag .overrun).receiveBytes bytes = s.setLinkFlag .overrun := by
  induction bytes with
  | nil => rfl
  | cons b bytes ih =>
    have hbyte : (s.setLinkFlag .overrun).receiveByte b = s.setLinkFlag .overrun := by
      simp [State.receiveByte, State.setLinkFlag, h, hfull, Link.places, Config.bufferPlaces]
    show ((s.setLinkFlag .overrun).receiveByte b).receiveBytes bytes = _
    rw [hbyte]
    exact ih

/-- R177: start byte, type and tag bring the receiver to the length field. -/
theorem receiveBytes_header (h : s.link.receiver = .hunting) (hfree : s.link.buffer.length < 2) (type tag lo hi : Byte) :
    s.receiveBytes [startByte, type, tag, lo, hi] =
      if 8200 < (halfOf lo hi).toNat then s.setLinkFlag .framing
      else s.setReceiver (payloadStand type tag (halfOf lo hi).toNat []) := by
  have hstart : s.receiveByte startByte = s.setReceiver .atType := by
    simp [State.receiveByte, h, places_hunting h, Config.bufferPlaces, Nat.not_le.2 hfree]
  have hlength : s.receiveBytes [startByte, type, tag, lo, hi] =
      (s.setReceiver (.atLength2 type tag lo)).receiveByte hi := by
    show ((((s.receiveByte startByte).receiveByte type).receiveByte tag).receiveByte lo).receiveByte hi = _
    rw [hstart]
    rfl
  rw [hlength]
  show (if Config.maxPayload < (halfOf lo hi).toNat then (s.setReceiver .hunting).setLinkFlag .framing else _) = _
  rw [setReceiver_hunting h]
  rfl

/-- R177: the payload bytes to come are gathered, and the check is awaited behind the last of them. -/
theorem receiveBytes_payload (type tag : Byte) (bytes got : List Byte) (s : State) :
    (s.setReceiver (payloadStand type tag bytes.length got)).receiveBytes bytes =
      s.setReceiver (.atCheck ⟨type, tag, got.reverse ++ bytes⟩) := by
  induction bytes generalizing got with
  | nil => simp [State.receiveBytes, payloadStand]
  | cons b bytes ih =>
    have hbyte : (s.setReceiver (payloadStand type tag (bytes.length + 1) got)).receiveByte b =
        s.setReceiver (payloadStand type tag bytes.length (b :: got)) := rfl
    show ((s.setReceiver (payloadStand type tag (bytes.length + 1) got)).receiveByte b).receiveBytes bytes = _
    rw [hbyte, ih (b :: got)]
    simp

/-- R177, R179: a frame within the longest payload is delivered where its check is right, and discarded otherwise. -/
theorem receiveBytes_frame (h : s.link.receiver = .hunting) (hfree : s.link.buffer.length < 2)
    (hlength : m.payload.length ≤ 8200) (check : Half) :
    s.receiveBytes (startByte :: m.covered ++ halfBytes check) =
      if check = crc16 m.covered then { s with link := s.link.deliver m } else s.setLinkFlag .crc := by
  let lo := loByte (BitVec.ofNat 16 m.payload.length)
  let hi := hiByte (BitVec.ofNat 16 m.payload.length)
  have hfield : (halfOf lo hi).toNat = m.payload.length := by
    rw [halfOf_bytes, BitVec.toNat_ofNat]
    omega
  have hparts : startByte :: m.covered ++ halfBytes check =
      [startByte, m.type, m.tag, lo, hi] ++ (m.payload ++ halfBytes check) := by
    simp [Message.covered, u16, halfBytes, lo, hi]
  have hheader : s.receiveBytes [startByte, m.type, m.tag, lo, hi] =
      s.setReceiver (payloadStand m.type m.tag m.payload.length []) := by
    rw [receiveBytes_header h hfree, hfield, if_neg (by omega)]
  have hcheck : (s.setReceiver (.atCheck m)).receiveBytes (halfBytes check) =
      if halfOf (loByte check) (hiByte check) = crc16 m.covered then
        { s.setReceiver .hunting with link := (s.setReceiver .hunting).link.deliver m }
      else (s.setReceiver .hunting).setLinkFlag .crc := rfl
  rw [hparts, receiveBytes_append, hheader, receiveBytes_append, receiveBytes_payload, List.reverse_nil,
    List.nil_append, hcheck, halfOf_bytes, setReceiver_hunting h]

/-- R177, R178: the frame of a message is delivered. -/
theorem receive_frame (h : s.link.receiver = .hunting) (hfree : s.link.buffer.length < 2)
    (hlength : m.payload.length ≤ 8200) : s.receiveBytes m.frame = { s with link := s.link.deliver m } := by
  show s.receiveBytes (startByte :: m.covered ++ halfBytes (crc16 m.covered)) = _
  rw [receiveBytes_frame h hfree hlength, if_pos rfl]

theorem exec_messageReceived (h : s.resetPin = false) (bytes : List Byte) :
    exec (.messageReceived bytes) s = .next (s.receiveBytes bytes) :=
  event_outOfReset h _

theorem exec_interByteGapTimeout (h : s.resetPin = false) :
    exec .interByteGapTimeout s = .next (gapTimeout s) :=
  event_outOfReset h _

/-! ## Request commands (R180) -/

variable {i : Instr}

/-- Every request command is carried out by a block. -/
theorem exec_request (h : i.encode = some m) : ∃ block, ∀ s, exec i s = carryOut i block s := by
  cases i
  all_goals first
    | exact ⟨_, fun _ => rfl⟩
    | cases h

/-- R178: a request command arrives as a whole message. -/
theorem arrive_free (hfree : s.link.places < 2) (hlength : m.payload.length ≤ 8200) :
    s.arrive m = { s with link := s.link.deliver m } := by
  simp [State.arrive, Config.bufferPlaces, Config.maxPayload, Nat.not_le.2 hfree, Nat.not_lt.2 hlength]

theorem arrive_full (hfull : 2 ≤ s.link.places) : s.arrive m = s.setLinkFlag .overrun := by
  simp [State.arrive, Config.bufferPlaces, hfull]

/-- R180: a request that is not with its block only arrives, where another is current. -/
theorem request_behind {block : State → State} (hmessage : i.encode = some m) (hnot : s.isHanded i = false)
    (hcurrent : s.link.current ≠ none) : State.request i block s = s.arrive m := by
  simp [State.request, hnot, hmessage, hcurrent]

/-- R180: a request that arrives on a free link is carried out as the current one. -/
theorem request_free {block : State → State} (hmessage : i.encode = some m) (hnone : s.link.current = none)
    (hcurrent : (s.arrive m).link.current = some ⟨m, .handed⟩) : State.request i block s = block (s.arrive m) := by
  have hnot : s.isHanded i = false := by simp [State.isHanded, hnone]
  simp [State.request, hnot, hmessage, hnone, hcurrent]

end Reception

/-! ## The obligations -/

/-- Settles O47: the length a type asks for, by the three kinds of type, and the examination against it. -/
theorem linkExaminesTypeAndLength : Obligations.LinkExaminesTypeAndLength := by
  intro m
  refine ⟨fun n h => ⟨examineMessage_handed (expectedLength_fixed h), examineMessage_badLength (expectedLength_fixed h)⟩,
    fun size h => ?counted, fun h => ?corrections, fun hfixed hline hcurve hcorrections =>
      examineMessage_unknown (expectedLength_unknown hfixed hline hcurve hcorrections)⟩
  case counted =>
    have hlength := expectedLength_counted h
    refine ⟨fun hshort => ?_, fun a b c d lo hi rest hpayload => ?_⟩
    · rw [countAt4_short hshort] at hlength
      exact ⟨examineMessage_handed hlength, examineMessage_badLength hlength⟩
    · have hcount : countAt4 m.payload = (hi ++ lo).toNat := by rw [hpayload]; rfl
      rw [hcount] at hlength
      exact ⟨examineMessage_handed hlength, examineMessage_badLength hlength⟩
  case corrections =>
    have hlength := expectedLength_corrections h
    refine ⟨fun hpayload => ?_, fun count rest hpayload => ?_⟩
    all_goals
      rw [hpayload] at hlength
      exact ⟨examineMessage_handed hlength, examineMessage_badLength hlength⟩

/-- Settles O45: a frame received whole is delivered, and delivery takes the message on a free link and holds it behind
a current request. -/
theorem wholeMessageIsHeldOrTaken : Obligations.WholeMessageIsHeldOrTaken := by
  refine ⟨lrdy_iff, fun m s hreset hhunting hlength hfree => ?_⟩
  have hexec : exec (.messageReceived m.frame) s = .next { s with link := s.link.deliver m } := by
    rw [exec_messageReceived hreset, receive_frame hhunting hfree hlength]
  refine ⟨(lrdy_iff s).2 ⟨hreset, by simpa [hhunting] using hfree⟩, fun pair hpair => ?_, ⟨_, hexec, fun hbuffer => ?_,
    fun hcurrent hone => ?_⟩, fun hcurrent hbuffer => ?_, fun hcurrent => ?_⟩
  · have hbits : pair = lineBits m.frame := List.ext_getElem? fun k => (hpair k).trans (lineBits_get _ k).symm
    rw [hbits, lineBytes_lineBits]
  · obtain ⟨hreceiver, hplaces⟩ := deliver_receiver s.link m
    refine (lrdy_iff _).2 ⟨hreset, ?_⟩
    simp only [hreceiver, hhunting, if_true]
    simp only [hbuffer, List.length_nil] at hplaces
    omega
  · rw [Bool.eq_false_iff, Ne, lrdy_iff]
    simp [deliver_behind hcurrent, hone, hhunting]
  · rw [hexec, deliver_free hcurrent hbuffer]
  · rw [hexec, deliver_behind hcurrent]

/-- Settles O46: each faulty reception by where the receiver discards it. -/
theorem faultyReceptionsAreDiscarded : Obligations.FaultyReceptionsAreDiscarded := by
  intro s hreset
  have hdiscard (h : s.link.receiver = .hunting) (f : LinkFlag) :
      s.setLinkFlag f = (s.setReceiver .hunting).setLinkFlag f := by rw [setReceiver_hunting h]
  refine ⟨fun h => ⟨fun bytes hno => ?_, fun m hfull => ?_, fun type tag lo hi hfree hlong => ?_,
    fun m check hfree hlength hwrong => ?_, ?_⟩, fun h => ?_⟩
  · rw [exec_messageReceived hreset, receiveBytes_noStart h hno]
  · have hstart : s.receiveByte startByte = s.setLinkFlag .overrun := by
      simp [State.receiveByte, h, places_hunting h, hfull, Config.bufferPlaces]
    have hframe : s.receiveBytes m.frame = s.setLinkFlag .overrun := by
      show (s.receiveByte startByte).receiveBytes _ = _
      rw [hstart, receiveBytes_overrun h hfull]
    rw [exec_messageReceived hreset, hframe, hdiscard h]
    rfl
  · have hheader : s.receiveBytes [startByte, type, tag, lo, hi] = s.setLinkFlag .framing :=
      (receiveBytes_header h hfree type tag lo hi).trans (if_pos hlong)
    exact (exec_messageReceived hreset _).trans (congrArg Host.Outcome.next (hheader.trans (hdiscard h _)))
  · have hframe : s.receiveBytes (startByte :: m.covered ++ halfBytes check) = s.setLinkFlag .crc :=
      (receiveBytes_frame h hfree hlength check).trans (if_neg hwrong)
    exact (exec_messageReceived hreset _).trans (congrArg Host.Outcome.next (hframe.trans (hdiscard h _)))
  · rw [exec_interByteGapTimeout hreset, gapTimeout, if_pos h]
  · rw [exec_interByteGapTimeout hreset, gapTimeout, if_neg h]
    rfl

/-- Settles O48: the command arrives as its message, which on a free link passes the examination and is carried out. -/
theorem requestCommandReachesBlock : Obligations.RequestCommandReachesBlock := by
  intro i m s hw hmessage hreset hhunting
  obtain ⟨block, hblock⟩ := exec_request hmessage
  have hlength := (encode_length i hw m hmessage).2
  refine ⟨fun hcurrent hbuffer => ?_, fun c hcurrent hnot => ?_⟩
  · have harrive : s.arrive m = { s with link := { s.link with current := some ⟨m, .handed⟩ } } := by
      rw [arrive_free (by simp [places_hunting hhunting, hbuffer]) hlength, deliver_free hcurrent hbuffer,
        examineMessage_encode hw hmessage]
    have hhanded : (s.arrive m).Handed i m := by
      rw [harrive]
      exact ⟨hreset, rfl, decode_encode hw hmessage⟩
    rw [← harrive, hblock, hblock, carryOut_handed hhanded, carryOut, event_outOfReset hreset,
      request_free hmessage hcurrent hhanded.2.1]
  · have hbehind : exec i s = .next (s.arrive m) := by
      rw [hblock, carryOut, event_outOfReset hreset, request_behind hmessage hnot (by simp [hcurrent])]
    refine ⟨fun hfree => ?_, fun hfull => ?_⟩
    · rw [hbehind, arrive_free (by rwa [places_hunting hhunting]) hlength, deliver_behind (by simp [hcurrent])]
    · rw [hbehind, arrive_full (by rwa [places_hunting hhunting])]
      rfl

end Sys2Proof.Machine
end

section
/-! The records of replies and notices by offset, and the transmitting side of the link: the transmit arbiter's choice,
the notice mask, the Spoil Log's removals, and Get Status. -/

namespace Sys2Proof.Machine

section Codes

/-! ## The codes of a record, in the order of the manual's tables (R191 to R193) -/

theorem spoilKind_code (k : SpoilKind) : k.code = [SpoilKind.spoiled, .suspect].idxOf k := by cases k <;> rfl

theorem spoilCause_code (c : SpoilCause) :
    c.code = 1 + [SpoilCause.underrun, .powerFault, .scanLost, .laserFault, .interlock, .transportFault, .stopNow,
      .softReset, .monitorLost].idxOf c := by cases c <;> rfl

theorem channel_code (ch : Channel) : ch.code = [Channel.red, .green, .blue].idxOf ch := by cases ch <;> rfl

theorem jobOutcome_code (o : JobOutcome) :
    o.code = 1 + [JobOutcome.complete, .cancelled, .flushed].idxOf o := by cases o <;> rfl

theorem haltReason_code (r : HaltReason) :
    r.code = 1 + [HaltReason.stopRequest, .queueEmpty, .underrun, .dataLate, .powerFault, .monitorLost, .scanLost,
      .laserFault, .interlock, .transportFault, .endOfReel, .softReset].idxOf r := by cases r <;> rfl

theorem runState_code (r : RunState) :
    r.code = [RunState.stopped, .running, .pausing, .paused].idxOf r := by cases r <;> rfl

theorem phase_code (p : Phase) : p.code = [Phase.between, .preparing, .exposing].idxOf p := by cases p <;> rfl

theorem runMode_code (m : RunMode) : m.code = [RunMode.endOnEmpty, .holdOnEmpty].idxOf m := by cases m <;> rfl

theorem stopMode_code (m : StopMode) :
    m.code = [StopMode.none, .atJob, .atFrame, .now].idxOf m := by cases m <;> rfl

theorem gate_code (g : Gate) : g.code = [Gate.fresh, .used].idxOf g := by cases g <;> rfl

theorem transportState_code {x : TransportState} (h : ∀ cause, x ≠ .fault cause) :
    x.code = [TransportState.empty, .opened, .advancing, .settling, .registered].idxOf x ∧ x.causeCode = 0 := by
  cases x
  case fault cause => exact absurd rfl (h cause)
  all_goals exact ⟨rfl, rfl⟩

theorem transportCause_code (c : TransportCause) :
    c.code = 1 + [TransportCause.filmLost, .tension, .perfTimeout, .gate].idxOf c := by cases c <;> rfl

theorem laserState_code (l : LaserState) :
    l.code = [LaserState.off, .warming, .ready, .fault].idxOf l := by cases l <;> rfl

theorem deadline_code (d : Deadline) : d.code = 1 + [Deadline.index, .sos].idxOf d := by cases d <;> rfl

theorem scanCodes_eq (c : ScanState) : scanCodes c = u8 c.code ++ u8 c.causeCode := by
  cases c
  case lost cause => cases cause <;> rfl
  all_goals rfl

/-! ## Bits of a byte -/

theorem bits_two (a b : Bool) : bits [a, b] = bitAt a 0 + bitAt b 1 := by cases a <;> cases b <;> rfl

theorem bits_three (a b c : Bool) : bits [a, b, c] = bitAt a 0 + bitAt b 1 + bitAt c 2 := by
  cases a <;> cases b <;> cases c <;> rfl

/-- A bit of a byte is its weight, or nothing. -/
theorem bitAt_eq (b : Bool) (n : Nat) : bitAt b n = (if b then 1 else 0) * 2 ^ n := by cases b <;> simp [bitAt]

theorem bits_six (a b c d e f : Bool) :
    bits [a, b, c, d, e, f] = bitAt a 0 + bitAt b 1 + bitAt c 2 + bitAt d 3 + bitAt e 4 + bitAt f 5 := by
  simp only [bits, bitAt_eq]
  omega

theorem bits_eight (a b c d e f g h : Bool) :
    bits [a, b, c, d, e, f, g, h] =
      bitAt a 0 + bitAt b 1 + bitAt c 2 + bitAt d 3 + bitAt e 4 + bitAt f 5 + bitAt g 6 + bitAt h 7 := by
  simp only [bits, bitAt_eq]
  omega

/-- R5, R191: the presence byte of a job record: the marks of the work, then positions and outcome. -/
theorem bits_presence (marks : List Bool) (hmarks : marks.length = 5) (a b : Bool) :
    bits (marks ++ [a, b]) = bits marks + bitAt a 5 + bitAt b 6 := by
  obtain ⟨x0, x1, x2, x3, x4, rfl⟩ : ∃ x0 x1 x2 x3 x4, marks = [x0, x1, x2, x3, x4] := by
    match marks, hmarks with
    | [x0, x1, x2, x3, x4], _ => exact ⟨x0, x1, x2, x3, x4, rfl⟩
  simp only [List.cons_append, List.nil_append, bits, bitAt_eq]
  omega

theorem lineByte_eq (l : Lines) : lineByte l = l.byte := by rw [lineByte, bits_eight]; rfl

end Codes

section Records

/-! ## The records by offset -/

/-- R192: a Spoil Log entry. -/
theorem entry_laidOut (e : SpoilEntry) : EntryLaidOut e e.record where
  size := rfl
  kind := by rw [← spoilKind_code]; rfl
  cause := by rw [← spoilCause_code]; rfl
  presence := by rw [bits_two]; rfl
  place := ⟨rfl, rfl⟩
  line := rfl
  channel ch h := by
    obtain ⟨kind, position, tag, cause, line, channel⟩ := e
    cases h
    rw [← channel_code]
    rfl
  noChannel h := by
    obtain ⟨kind, position, tag, cause, line, channel⟩ := e
    cases h
    rfl

/-- R192: the halt record. -/
theorem halt_laidOut (h : Option HaltRecord) : HaltLaidOut h (haltRecordBytes h) 0 where
  absent h := by rw [h]; rfl
  record x h := by
    rw [h, ← haltReason_code]
    exact ⟨rfl, rfl, rfl, rfl⟩

theorem haltRecordBytes_length (h : Option HaltRecord) : (haltRecordBytes h).length = 6 := by cases h <;> rfl

/-- R193: the MONITOR content. -/
theorem monitor_laidOut (m : Monitor) : MonitorLaidOut m m.content 0 where
  flags ch := by
    dsimp only
    rw [bits_six]
    cases ch <;> rfl
  trims ch := by cases ch <;> rfl

/-- R185: the SCAN content. -/
theorem scan_laidOut (c : Scan) : ScanLaidOut c c.content where
  size := by
    unfold Scan.content CalOutcome.content
    split <;> rfl
  state := by
    rw [scanCodes_eq]
    rfl
  none h := by
    unfold Scan.content
    rw [h]
    rfl
  locked done h := by
    unfold Scan.content
    rw [h]
    rfl
  facetCount done revolution pulses h := by
    unfold Scan.content
    rw [h]
    rfl
  outOfRange done facet period h := by
    unfold Scan.content
    rw [h]
    exact ⟨rfl, rfl, rfl, rfl, rfl⟩
  noSignal done deadline h := by
    unfold Scan.content
    rw [h, ← deadline_code]
    exact ⟨rfl, rfl, rfl⟩

/-- R191: the repeat count is sent in one byte, in which 256 is 0. -/
theorem u8_repeatCount (n : Nat) : u8 (if n = 256 then 0 else n) = u8 n := by
  split
  · subst n
    rfl
  · rfl

variable {tag repeatCount framesDone spoiled suspect saturated : Nat} {work : Work} {positions : Option Positions}
  {outcome : Option JobOutcome}

/-- R191: the items of an EXPOSE job. -/
theorem record_expose (planes : Rgb Selector) (curve : Nat) (release : Bool) :
    let r := Job.record ⟨tag, .expose planes curve release, repeatCount, framesDone, spoiled, suspect, saturated,
      positions, outcome⟩
    At r 2 (u8 0) ∧ At r 3 (u8 (bits [true, true, false, true, true, positions.isSome, outcome.isSome])) ∧
    At r 4 (u16 planes.red.wire ++ u16 planes.green.wire ++ u16 planes.blue.wire) ∧ At r 10 (u8 curve) ∧
    At r 11 [0, 0, 0, 0, 0, 0] ∧ At r 18 (u8 (if release then 1 else 0)) ∧ At r 23 (u16 saturated) := by
  have hpresence := bits_presence [true, true, false, true, true] rfl positions.isSome outcome.isSome
  simp only [List.cons_append, List.nil_append] at hpresence
  rw [hpresence]
  cases release <;>
    simp [At, Job.record, Work.selectorBytes, Work.flashBytes, Work.curve, Work.release, Work.presence, Work.kindCode,
      bits, bitAt, u16, u8, halfBytes]

/-- R191: the items of a FLASH job. -/
theorem record_flash (curve : Nat) (values : Rgb Nat) :
    let r := Job.record ⟨tag, .flash curve values, repeatCount, framesDone, spoiled, suspect, saturated, positions,
      outcome⟩
    At r 2 (u8 1) ∧ At r 3 (u8 (bits [false, true, true, false, true, positions.isSome, outcome.isSome])) ∧
    At r 4 [0, 0, 0, 0, 0, 0] ∧ At r 10 (u8 curve) ∧
    At r 11 (u16 values.red ++ u16 values.green ++ u16 values.blue) ∧ At r 18 [0] ∧ At r 23 (u16 saturated) := by
  have hpresence := bits_presence [false, true, true, false, true] rfl positions.isSome outcome.isSome
  simp only [List.cons_append, List.nil_append] at hpresence
  rw [hpresence]
  simp [At, Job.record, Work.selectorBytes, Work.flashBytes, Work.curve, Work.release, Work.presence, Work.kindCode,
    bits, bitAt, u16, u8, halfBytes]

/-- R191: the items of a BLANK job. -/
theorem record_blank :
    let r := Job.record ⟨tag, .blank, repeatCount, framesDone, spoiled, suspect, saturated, positions, outcome⟩
    At r 2 (u8 2) ∧ At r 3 (u8 (bits [false, false, false, false, false, positions.isSome, outcome.isSome])) ∧
    At r 4 [0, 0, 0, 0, 0, 0] ∧ At r 10 [0] ∧ At r 11 [0, 0, 0, 0, 0, 0] ∧ At r 18 [0] ∧ At r 23 [0, 0] := by
  have hpresence := bits_presence [false, false, false, false, false] rfl positions.isSome outcome.isSome
  simp only [List.cons_append, List.nil_append] at hpresence
  rw [hpresence]
  simp [At, Job.record, Work.selectorBytes, Work.flashBytes, Work.curve, Work.release, Work.presence, Work.kindCode,
    bits, bitAt, u16, u8, halfBytes, loByte, hiByte]

/-- The fields of a work within a record have one length each. -/
theorem work_lengths (w : Work) : ∃ s0 s1 s2 s3 s4 s5 f0 f1 f2 f3 f4 f5,
    w.selectorBytes = [s0, s1, s2, s3, s4, s5] ∧ w.flashBytes = [f0, f1, f2, f3, f4, f5] := by
  cases w <;> exact ⟨_, _, _, _, _, _, _, _, _, _, _, _, rfl, rfl⟩

/-- R191: the items that a job of any kind has. -/
theorem record_common (j : Job) :
    j.record.length = 30 ∧ At j.record 0 (u16 j.tag) ∧ At j.record 17 (u8 j.repeatCount) ∧
    (At j.record 19 (u16 j.framesDone) ∧ At j.record 21 (u8 j.spoiled) ∧ At j.record 22 (u8 j.suspect)) ∧
    At j.record 25 (u16 ((j.positions.map Positions.first).getD 0) ++ u16 ((j.positions.map Positions.last).getD 0)) ∧
    At j.record 29 (u8 ((j.outcome.map JobOutcome.code).getD 0)) := by
  obtain ⟨s0, s1, s2, s3, s4, s5, f0, f1, f2, f3, f4, f5, hselectors, hflash⟩ := work_lengths j.work
  rw [Job.record, hselectors, hflash]
  simp [At, u16, u8, halfBytes]

/-- R191: the job record. -/
theorem job_laidOut (j : Job) : JobLaidOut j j.record := by
  obtain ⟨hsize, htag, hrepeats, hprogress, hpositions, houtcome⟩ := record_common j
  obtain ⟨tag, work, repeatCount, framesDone, spoiled, suspect, saturated, positions, outcome⟩ := j
  refine ⟨hsize, htag, ?expose, ?flash, ?blank, ?repeats, hprogress, ?positions, ?noPositions, ?outcome, ?noOutcome⟩
  case expose =>
    rintro planes curve release ⟨⟩
    exact record_expose planes curve release
  case flash =>
    rintro curve values ⟨⟩
    exact record_flash curve values
  case blank =>
    rintro ⟨⟩
    exact record_blank
  case repeats =>
    rw [u8_repeatCount]
    exact hrepeats
  case positions =>
    rintro p ⟨⟩
    exact hpositions
  case noPositions =>
    rintro ⟨⟩
    simpa [u16, halfBytes, loByte, hiByte] using hpositions
  case outcome =>
    rintro o ⟨⟩
    rw [← jobOutcome_code]
    exact houtcome
  case noOutcome =>
    rintro ⟨⟩
    exact houtcome

end Records

section Transmitter

variable {s : State}

/-! ## The transmit arbiter (R184, R185) -/

theorem exec_transmitStart (h : s.resetPin = false) (hrdy : Bool) :
    exec (.transmitStart hrdy) s = .next (s.startTransmission hrdy) :=
  event_outOfReset h _

/-- R176: with HRDY deasserted no message is begun. -/
theorem startTransmission_notReady (s : State) :
    s.startTransmission false = { s with link := { s.link with hrdy := false } } := by
  simp [State.startTransmission]

/-- R184: a message under way goes on. -/
theorem startTransmission_busy (h : s.link.transmitter ≠ none) :
    s.startTransmission true = { s with link := { s.link with hrdy := true } } := by
  simp [State.startTransmission, h]

/-- R184: with the transmitter idle and HRDY asserted the arbiter chooses. -/
theorem startTransmission_idle (h : s.link.transmitter = none) :
    s.startTransmission true = State.choose { s with link := { s.link with hrdy := true } } := by
  simp [State.startTransmission, h]

/-- R184: the reply to the current request goes first. -/
theorem startTransmission_reply {q : Message} {r : Reply} (hidle : s.link.transmitter = none)
    (hq : s.link.current = some ⟨q, .replyPending r⟩) :
    s.startTransmission true = { s with link := { s.link with
      hrdy := true, current := some ⟨q, .replySending⟩, transmitter := some ⟨.reply r, r.message q⟩ } } := by
  rw [startTransmission_idle hidle]
  simp [State.choose, hq]

/-- R184: with no reply pending the first pending notice goes. -/
theorem startTransmission_notice (hidle : s.link.transmitter = none)
    (hreply : ∀ q r, s.link.current ≠ some ⟨q, .replyPending r⟩) :
    s.startTransmission true = { s with link := { s.link with
      hrdy := true, transmitter := State.firstNotice { s with link := { s.link with hrdy := true } } } } := by
  rw [startTransmission_idle hidle]
  unfold State.choose
  split
  · exact absurd ‹_› (hreply _ _)
  all_goals rfl

/-- R170: the entry at the cursor: the oldest of those not yet notified. -/
theorem cursorEntry_eq {l : SpoilLog} {before after : List SpoilEntry} {e : SpoilEntry}
    (hentries : l.entries = before ++ e :: after) (hunsent : l.unsent = after.length + 1) :
    l.cursorEntry = some e := by
  have hplace : (before ++ e :: after).length - (after.length + 1) = before.length := by simp
  rw [SpoilLog.cursorEntry, hentries, hunsent, hplace]
  simp

theorem cursorEntry_none {l : SpoilLog} (h : l.unsent = 0) : l.cursorEntry = none := if_pos h

/-- R184: the notices in class order, HALT and SPOIL first. -/
theorem firstNotice_halt (h : s.link.notices.halt = true) : s.firstNotice = some (s.flagNotice .halt) := if_pos h

theorem firstNotice_spoil {e : SpoilEntry} (h : s.link.notices.halt = false) (he : s.log.cursorEntry = some e) :
    s.firstNotice = some ⟨.spoil false, noticeMessage 2 e.record⟩ := by
  simp [State.firstNotice, h, he]

theorem firstNotice_jobResult {j : Job} {rest : List Job} (h : s.link.notices.halt = false)
    (he : s.log.cursorEntry = none) (hj : s.jobs.results = j :: rest) :
    s.firstNotice = some ⟨.jobResult, noticeMessage 3 j.record⟩ := by
  simp [State.firstNotice, h, he, hj]

/-- R184: with no HALT, SPOIL or JOB_RESULT notice pending, SCAN, MONITOR and LINES follow. -/
theorem firstNotice_last (h : s.link.notices.halt = false) (he : s.log.cursorEntry = none)
    (hj : s.jobs.results = []) :
    s.firstNotice =
      if s.link.notices.scan then some (s.flagNotice .scan)
      else if s.link.notices.monitor then some (s.flagNotice .monitor)
      else if s.link.notices.lines then some (s.flagNotice .lines)
      else none := by
  simp [State.firstNotice, h, he, hj]

/-- R184: what the arbiter's moment sends with no reply pending. -/
theorem transmitStart_notice (hreset : s.resetPin = false) (hidle : s.link.transmitter = none)
    (hreply : ∀ q r, s.link.current ≠ some ⟨q, .replyPending r⟩) {x : Option Transmission}
    (hx : State.firstNotice { s with link := { s.link with hrdy := true } } = x) :
    exec (.transmitStart true) s = .next { s with link := { s.link with hrdy := true, transmitter := x } } := by
  rw [exec_transmitStart hreset, startTransmission_notice hidle hreply, hx]

/-- R176: the transmit pair carries the frame of the message under way. -/
theorem transmitPair_get {sending : Sending} {msg : Message} (h : s.link.transmitter = some ⟨sending, msg⟩) (k : Nat) :
    s.transmitPair[k]? = (msg.frame[k / 8]?).map fun b => b.getLsbD (k % 8) := by
  rw [State.transmitPair, h]
  exact lineBits_get _ k

end Transmitter

/-! ## The obligation -/

/-- Settles O50: the records by their layout lemmas; the choice by the stage of the current request and the first
pending notice. -/
theorem transmitterChoosesInOrder : Obligations.TransmitterChoosesInOrder := by
  intro s hreset
  refine ⟨⟨halt_laidOut _, haltRecordBytes_length _⟩, entry_laidOut, job_laidOut, scan_laidOut _,
    ⟨monitor_laidOut _, rfl⟩, ?pins, fun h => ?idle, fun sending msg k h => transmitPair_get h k, ?notReady,
    fun h => ?busy, fun h => ⟨fun q items hq => ?accept, fun q code detail hq => ?refuse, fun hreply => ?notices⟩⟩
  case pins => rw [lineByte_eq, lineByte_eq]; rfl
  case idle => rw [State.transmitPair, h]
  case notReady => rw [exec_transmitStart hreset, startTransmission_notReady]
  case busy => rw [exec_transmitStart hreset, startTransmission_busy h]
  case accept => rw [exec_transmitStart hreset, startTransmission_reply h hq]; rfl
  case refuse => rw [exec_transmitStart hreset, startTransmission_reply h hq]; rfl
  case notices =>
    refine ⟨fun hhalt => transmitStart_notice hreset h hreply (firstNotice_halt hhalt), fun hhalt =>
      ⟨fun before e after hentries hunsent => transmitStart_notice hreset h hreply
        (firstNotice_spoil hhalt (cursorEntry_eq hentries hunsent)), fun hunsent => ⟨fun j rest hj =>
          transmitStart_notice hreset h hreply (firstNotice_jobResult hhalt (cursorEntry_none hunsent) hj),
        fun hj => ?_⟩⟩⟩
    have hlast := firstNotice_last (s := { s with link := { s.link with hrdy := true } }) hhalt
      (cursorEntry_none hunsent) hj
    refine ⟨fun hscan => ?_, fun hscan hmonitor => ?_, fun hscan hmonitor hlines => ?_, fun hscan hmonitor hlines => ?_⟩
    all_goals refine transmitStart_notice hreset h hreply (hlast.trans ?_)
    · exact if_pos hscan
    · simp only [hscan, hmonitor]; rfl
    · simp only [hscan, hmonitor, hlines]; rfl
    · simp [hscan, hmonitor, hlines]

end Sys2Proof.Machine
end

section
/-! The Spoil Log's removals, the notice mask and Get Status. -/

namespace Sys2Proof.Machine

section Commands

theorem exec_takeSpoilEntries (rt count : Byte) (s : State) :
    exec (.takeSpoilEntries rt count) s = carryOut (.takeSpoilEntries rt count) (takeSpoilEntriesBlock count) s := rfl

theorem exec_getStatus (rt : Byte) (s : State) :
    exec (.getStatus rt) s = carryOut (.getStatus rt) getStatusBlock s := rfl

theorem exec_setNotices (rt mask : Byte) (s : State) :
    exec (.setNotices rt mask) s = carryOut (.setNotices rt mask) (setNoticesBlock mask) s := rfl

end Commands

section Entries

variable {s : State} {m : Message}

/-- A value outside a range, as the model and as the manual's tables test it. -/
theorem outOfRange_eq (lo hi n : Nat) : decide (n < lo ∨ hi < n) = decide (¬ (lo ≤ n ∧ n ≤ hi)) :=
  decide_eq_decide.2 (by omega)

/-! ## Take Spoil Entries (R172, R173) -/

/-- R172: any other message that is being sent is as it was. -/
theorem noteRemoval_other (k : Nat) (l : SpoilLog) {x : Transmission} (h : ∀ removed msg, x ≠ ⟨.spoil removed, msg⟩) :
    noteRemoval k l x = x := by
  obtain ⟨sending, msg⟩ := x
  cases sending
  case spoil removed => exact absurd rfl (h removed msg)
  all_goals rfl

/-- R173: the state that the removal of entries leaves. -/
def State.entriesTaken (k : Nat) (s : State) : State :=
  { s with
    log := ⟨s.log.entries.drop k, min s.log.unsent (s.log.entries.length - k)⟩
    link := { s.link with transmitter := s.link.transmitter.map (noteRemoval k s.log) } }

theorem takeSpoilEntries_handed {rt count : Byte} (h : s.Handed (.takeSpoilEntries rt count) m) :
    let k := min count.toNat s.log.entries.length
    let checks : List Check := [(decide (¬ (1 ≤ count.toNat ∧ count.toNat ≤ 8)), .badValue, 1)]
    FirstRefusal (.takeSpoilEntries rt count) m s checks ∧
    (passes checks → Accepted (.takeSpoilEntries rt count) m s (s.entriesTaken k)
      (u8 k ++ (s.log.entries.take k).flatMap SpoilEntry.record ++ u8 (s.log.entries.length - k))) := by
  refine h.examined_accept rfl ?_
  rw [exec_takeSpoilEntries, carryOut_handed h, takeSpoilEntriesBlock, outOfRange_eq]
  refine congrArg Host.Outcome.next (examine_congr rfl fun _ => ?_)
  simp only [State.takeEntries, List.length_drop]
  rfl

/-! ## Notices raised and masked (R185, R186) -/

theorem NoticeFlags.get_set (f : NoticeFlags) (c c' : FlagClass) (b : Bool) :
    (f.set c b).get c' = if c' = c then b else f.get c' := by
  cases c <;> cases c' <;> rfl

/-- R186: an event of a disabled class raises nothing. -/
theorem raise_disabled {c : FlagClass} (h : s.link.mask.enables c = false) : s.raise c = s := by
  rw [State.raise, Link.raise, if_neg (by simp [h])]

/-- R185: an event of an enabled class sets its flag. -/
theorem raise_enabled {c : FlagClass} (h : s.link.mask.enables c = true) :
    (s.raise c).link.notices.get c = true := by
  rw [State.raise, Link.raise, if_pos h]
  simp [NoticeFlags.get_set]

/-- R186: a notice that is being sent, once a class has been left enabled or disabled: where it is of a disabled class
it leaves no flag behind. -/
def Transmission.lowered (c : FlagClass) (on : Bool) (x : Transmission) : Transmission :=
  match x.sending with
  | .flag c' again => { x with sending := .flag c' (again && (on || !decide (c' = c))) }
  | .reply _ | .spoil _ | .jobResult => x

theorem lowered_flag (c c' : FlagClass) (on again : Bool) (msg : Message) :
    Transmission.lowered c on ⟨.flag c' again, msg⟩ = ⟨.flag c' (again && (on || !decide (c' = c))), msg⟩ := rfl

theorem lowered_other (c : FlagClass) (on : Bool) {x : Transmission} (h : ∀ c again msg, x ≠ ⟨.flag c again, msg⟩) :
    x.lowered c on = x := by
  obtain ⟨sending, msg⟩ := x
  cases sending
  case flag c again => exact absurd rfl (h c again msg)
  all_goals rfl

/-- A class left enabled changes nothing. -/
theorem lowered_on (c : FlagClass) (x : Transmission) : x.lowered c true = x := by
  obtain ⟨sending, msg⟩ := x
  cases sending
  case flag c' again => simp [lowered_flag]
  all_goals rfl

/-- R186: the effect of a mask on one class. -/
theorem dropDisabled_eq (c : FlagClass) (l : Link) :
    l.dropDisabled c = { l with
      notices := l.notices.set c (l.notices.get c && l.mask.enables c)
      transmitter := l.transmitter.map (Transmission.lowered c (l.mask.enables c)) } := by
  unfold Link.dropDisabled
  cases hon : l.mask.enables c
  case true =>
    have hnotices : l.notices.set c (l.notices.get c && true) = l.notices := by
      cases c <;> simp [NoticeFlags.set, NoticeFlags.get]
    have htransmitter : l.transmitter.map (Transmission.lowered c true) = l.transmitter := by
      rw [funext (lowered_on c), Option.map_id']
    rw [hnotices, htransmitter]
    rfl
  case false =>
    have hnotices : l.notices.set c (l.notices.get c && false) = l.notices.set c false := by rw [Bool.and_false]
    rw [hnotices]
    rfl

/-- R186: the notice that is being sent, under a mask. -/
def Transmission.masked (m : NoticeMask) (x : Transmission) : Transmission :=
  ((x.lowered .scan m.scan).lowered .monitor m.monitor).lowered .lines m.lines

theorem masked_flag (m : NoticeMask) (c : FlagClass) (again : Bool) (msg : Message) :
    Transmission.masked m ⟨.flag c again, msg⟩ = ⟨.flag c (again && m.enables c), msg⟩ := by
  rw [Transmission.masked, lowered_flag, lowered_flag, lowered_flag]
  cases c <;> simp [NoticeMask.enables]

theorem masked_other (m : NoticeMask) {x : Transmission} (h : ∀ c again msg, x ≠ ⟨.flag c again, msg⟩) :
    x.masked m = x := by
  rw [Transmission.masked, lowered_other _ _ h, lowered_other _ _ h, lowered_other _ _ h]

/-- R186: the link under a mask. -/
theorem setMask_eq (m : NoticeMask) (l : Link) :
    l.setMask m = { l with
      mask := m
      notices := ⟨l.notices.halt, l.notices.scan && m.scan, l.notices.monitor && m.monitor, l.notices.lines && m.lines⟩
      transmitter := l.transmitter.map (Transmission.masked m) } := by
  rw [Link.setMask, dropDisabled_eq, dropDisabled_eq, dropDisabled_eq]
  simp only [Option.map_map]
  rfl

/-- R186: a mask byte is malformed, or its three low bits enable the classes. -/
theorem noticeMaskOf_cases (b : Byte) :
    (7 < b.toNat ∧ noticeMaskOf b = none) ∨
    (b.toNat ≤ 7 ∧ noticeMaskOf b = some ⟨b.getLsbD 0, b.getLsbD 1, b.getLsbD 2⟩) := by
  unfold noticeMaskOf
  split
  · exact .inl ⟨by omega, rfl⟩
  · exact .inr ⟨by omega, rfl⟩

/-- R186: a mask in range is sent back as it came. -/
theorem noticeMask_byte {b : Byte} (h : b.toNat ≤ 7) :
    NoticeMask.byte ⟨b.getLsbD 0, b.getLsbD 1, b.getLsbD 2⟩ = [b] := by
  have hall : ∀ n < 8, NoticeMask.byte ⟨(BitVec.ofNat 8 n).getLsbD 0, (BitVec.ofNat 8 n).getLsbD 1,
      (BitVec.ofNat 8 n).getLsbD 2⟩ = [BitVec.ofNat 8 n] := by decide
  have hb := hall b.toNat (by omega)
  rwa [BitVec.ofNat_toNat, BitVec.setWidth_eq] at hb

/-- R186: Set Notices is examined by the range of its mask, and then sets it. -/
theorem setNotices_handed {rt mask : Byte} (h : s.Handed (.setNotices rt mask) m) :
    exec (.setNotices rt mask) s = .next
      (if mask.toNat ≤ 7 then
        State.accept [mask]
          { s with link := s.link.setMask ⟨mask.getLsbD 0, mask.getLsbD 1, mask.getLsbD 2⟩ }
      else s.answer (.refuse .badValue 1)) := by
  rw [exec_setNotices, carryOut_handed h, setNoticesBlock]
  rcases noticeMaskOf_cases mask with ⟨hbad, hnone⟩ | ⟨hgood, hsome⟩
  · rw [hnone, if_neg (by omega)]
    rfl
  · rw [hsome, if_pos hgood, ← noticeMask_byte hgood]
    rfl

end Entries

section Status

variable {s : State} {m : Message}

/-! ## Get Status (R162, R187, R193) -/

/-- R161: a reading outside a window, as the model and as the manual test it. -/
theorem outsideWindow_eq (r target window : Nat) : outsideWindow r target window = outside r target window := by
  rw [outsideWindow, outside]
  congr 3
  split <;> omega

/-- Bytes that lie in a part of a record lie in the record, further on by what stands before the part. -/
theorem At.within {part bytes : List Byte} {offset at_ : Nat} (h : At part offset bytes) (front back : List Byte)
    (hfront : front.length = at_) : At (front ++ (part ++ back)) (at_ + offset) bytes := by
  have hlength : bytes.length ≤ (part.drop offset).length := by
    have := congrArg List.length h
    simp only [List.length_take] at this
    omega
  have hdrop : (front ++ (part ++ back)).drop (at_ + offset) = (part ++ back).drop offset := by
    rw [← hfront, ← List.drop_drop, List.drop_left]
  rw [At, hdrop]
  by_cases hoffset : offset ≤ part.length
  · rw [List.drop_append_of_le_length hoffset, List.take_append_of_le_length hlength]
    exact h
  · have hnil : bytes = [] := by
      rw [List.drop_of_length_le (by omega), List.length_nil] at hlength
      exact List.length_eq_zero_iff.1 (by omega)
    simp [hnil]

theorem MonitorLaidOut.within {x : Monitor} {part : List Byte} (h : MonitorLaidOut x part 0) {at_ : Nat}
    (front back : List Byte) (hfront : front.length = at_) : MonitorLaidOut x (front ++ (part ++ back)) at_ where
  flags ch := by
    have hflags := (h.flags ch).within front back hfront
    rwa [Nat.zero_add] at hflags
  trims ch := by
    have htrims := (h.trims ch).within front back hfront
    rwa [show at_ + (0 + 3 + 2 * ch.code) = at_ + 3 + 2 * ch.code by omega] at htrims

theorem HaltLaidOut.within {x : Option HaltRecord} {part : List Byte} (h : HaltLaidOut x part 0) {at_ : Nat}
    (front back : List Byte) (hfront : front.length = at_) : HaltLaidOut x (front ++ (part ++ back)) at_ where
  absent hnone := (h.absent hnone).within front back hfront
  record r hr := by
    obtain ⟨hmark, hreason, hposition, htag⟩ := h.record r hr
    exact ⟨hmark.within front back hfront, hreason.within front back hfront, hposition.within front back hfront,
      htag.within front back hfront⟩

/-- R193: the status record before its monitor content. -/
def State.statusFront (s : State) : List Byte :=
  u8 s.run.state.code ++ u8 s.seq.phase.code ++ u8 s.run.mode.code ++ u8 s.run.pendingStop.code ++
  u16 ((s.head.map Job.tag).getD 0) ++ u8 s.jobs.live.length ++ u8 s.jobs.results.length ++
  u8 (bitAt s.reel.isSome 0) ++ u16 s.transport.position ++ u8 s.transport.gate.code ++
  u8 s.transport.state.code ++ u8 s.transport.state.causeCode ++ u8 s.scan.state.code ++
  u8 s.scan.state.causeCode ++ u8 s.scan.misses ++ s.lasers.toList.flatMap (fun l => u8 l.code) ++
  u8 (bitAt s.pins.levels.interlock 0)

/-- R193: the items before the monitor content, by offset. -/
theorem statusFront_at (s : State) :
    s.statusFront.length = 21 ∧ At s.statusFront 0 (u8 s.run.state.code) ∧ At s.statusFront 1 (u8 s.seq.phase.code) ∧
    At s.statusFront 2 (u8 s.run.mode.code) ∧ At s.statusFront 3 (u8 s.run.pendingStop.code) ∧
    At s.statusFront 4 (u16 ((s.head.map Job.tag).getD 0)) ∧ At s.statusFront 6 (u8 s.jobs.live.length) ∧
    At s.statusFront 7 (u8 s.jobs.results.length) ∧ At s.statusFront 8 (u8 (bitAt s.reel.isSome 0)) ∧
    At s.statusFront 9 (u16 s.transport.position) ∧ At s.statusFront 11 (u8 s.transport.gate.code) ∧
    At s.statusFront 12 (u8 s.transport.state.code) ∧ At s.statusFront 13 (u8 s.transport.state.causeCode) ∧
    At s.statusFront 14 (u8 s.scan.state.code ++ u8 s.scan.state.causeCode) ∧
    At s.statusFront 16 (u8 s.scan.misses) ∧ At s.statusFront 17 (u8 s.lasers.red.code) ∧
    At s.statusFront 18 (u8 s.lasers.green.code) ∧ At s.statusFront 19 (u8 s.lasers.blue.code) ∧
    At s.statusFront 20 (u8 (bitAt s.pins.levels.interlock 0)) := by
  simp [At, State.statusFront, Rgb.toList, u8, u16, halfBytes]

/-- R193: the status record after its halt record. -/
def State.statusBack (s : State) : List Byte := s.link.flags.byte ++ s.pins.content

theorem statusRecord_eq (s : State) :
    s.statusRecord = s.statusFront ++ (s.monitor.content ++
      (u8 s.log.entries.length ++ (haltRecordBytes s.run.halt ++ s.statusBack))) := by
  have hparts : s.statusRecord = s.statusFront ++ s.monitor.content ++ u8 s.log.entries.length ++
      haltRecordBytes s.run.halt ++ s.link.flags.byte ++ s.pins.content := rfl
  rw [hparts, State.statusBack]
  simp only [List.append_assoc]

/-- R193: the items behind the halt record, by offset. -/
theorem statusBack_at (s : State) :
    s.statusBack.length = 3 ∧ At s.statusBack 0 s.link.flags.byte ∧ At s.statusBack 1 s.pins.levels.byte ∧
    At s.statusBack 2 s.pins.changed.byte := by
  simp [At, State.statusBack, Pins.content, LinkFlags.byte, Lines.byte, u8]

theorem monitor_content_length (x : Monitor) : x.content.length = 9 := by
  simp [Monitor.content, MonitorFlags.byte, Rgb.toList, u8, u16]

/-- What lies in the front of the status record lies in the record. -/
theorem status_front {offset : Nat} {bytes : List Byte} (h : At s.statusFront offset bytes) :
    At s.statusRecord offset bytes := by
  have hin := h.within (at_ := 0) [] (s.monitor.content ++ (u8 s.log.entries.length ++
    (haltRecordBytes s.run.halt ++ s.statusBack))) rfl
  rwa [Nat.zero_add, List.nil_append, ← statusRecord_eq] at hin

/-- The status record from its halt record on. -/
theorem statusRecord_halt (s : State) :
    s.statusRecord = (s.statusFront ++ s.monitor.content ++ u8 s.log.entries.length) ++
      (haltRecordBytes s.run.halt ++ s.statusBack) := by
  rw [statusRecord_eq]
  simp only [List.append_assoc]

/-- What lies behind the halt record lies in the record. -/
theorem status_back {offset : Nat} {bytes : List Byte} (h : At s.statusBack offset bytes) :
    At s.statusRecord (37 + offset) bytes := by
  have hin := h.within (at_ := 37)
    (s.statusFront ++ s.monitor.content ++ u8 s.log.entries.length ++ haltRecordBytes s.run.halt) []
    (by simp [(statusFront_at s).1, monitor_content_length, haltRecordBytes_length, u8])
  rwa [List.append_nil, List.append_assoc, ← statusRecord_halt] at hin

/-- R193: the status record. -/
theorem status_laidOut (s : State) : StatusLaidOut s s.statusRecord := by
  obtain ⟨hlength, hrun, hphase, hmode, hstop, hhead, hlive, hresults, hreel, hposition, hgate, htransport, hcause,
    hscan, hmisses, hred, hgreen, hblue, hinterlock⟩ := statusFront_at s
  obtain ⟨hbackLength, hflags, hlevels, hchanged⟩ := statusBack_at s
  constructor
  case size =>
    rw [statusRecord_eq]
    simp [hlength, monitor_content_length, haltRecordBytes_length, hbackLength, u8]
  case run => rw [← runState_code]; exact status_front hrun
  case phase => rw [← phase_code]; exact status_front hphase
  case mode => rw [← runMode_code]; exact status_front hmode
  case stop => rw [← stopMode_code]; exact status_front hstop
  case noHead =>
    intro h
    simp only [State.head, h] at hhead
    exact status_front hhead
  case head =>
    intro j rest h
    simp only [State.head, h] at hhead
    exact status_front hhead
  case counts => exact ⟨status_front hlive, status_front hresults⟩
  case reel =>
    cases h : s.reel <;> simp only [h] at hreel <;> exact status_front hreel
  case position => exact status_front hposition
  case gate => rw [← gate_code]; exact status_front hgate
  case transport =>
    intro h
    obtain ⟨hcode, hno⟩ := transportState_code h
    rw [hno] at hcause
    rw [← hcode]
    exact ⟨status_front htransport, status_front hcause⟩
  case fault =>
    intro cause h
    rw [h] at htransport hcause
    rw [← transportCause_code]
    exact ⟨status_front htransport, status_front hcause⟩
  case scan => rw [scanCodes_eq]; exact status_front hscan
  case misses => exact status_front hmisses
  case lasers =>
    intro ch
    rw [← laserState_code]
    cases ch
    · exact status_front hred
    · exact status_front hgreen
    · exact status_front hblue
  case interlock => exact status_front hinterlock
  case monitor => rw [statusRecord_eq]; exact (monitor_laidOut _).within _ _ hlength
  case log =>
    have hin : At (u8 s.log.entries.length) 0 (u8 s.log.entries.length) := rfl
    rw [statusRecord_eq, ← List.append_assoc]
    exact hin.within _ _ (by simp [hlength, monitor_content_length])
  case halt =>
    rw [statusRecord_halt]
    exact (halt_laidOut _).within _ _ (by simp [hlength, monitor_content_length, u8])
  case flags => rw [bits_three]; exact status_back (offset := 0) hflags
  case lines =>
    rw [lineByte_eq, lineByte_eq]
    exact ⟨status_back (offset := 1) hlevels, status_back (offset := 2) hchanged⟩

/-- R187: Get Status answers with the record of the state as it stands, and then clears. -/
theorem getStatus_handed {rt : Byte} (h : s.Handed (.getStatus rt) m) :
    Accepted (.getStatus rt) m s s.clearReported s.statusRecord := by
  rw [Accepted, exec_getStatus, carryOut_handed h]
  exact congrArg Host.Outcome.next (h.accept (t := s.clearReported) rfl s.statusRecord)

/-- R162: the flags that stay set, with targets. -/
theorem clearReported_channel {x : Monitor} {p : PowerTargets} (h : x.targets = some p) (ch : Channel) :
    x.clearReported.channels.get ch =
      { x.channels.get ch with flags := MonitorFlags.stillPresent (x.channels.get ch) (p.channels.get ch) } := by
  simp [Monitor.clearReported, h]

/-- R162: the flags that stay set, with no targets. -/
theorem clearReported_channel_unset {x : Monitor} (h : x.targets = none) (ch : Channel) :
    x.clearReported.channels.get ch =
      { x.channels.get ch with flags := MonitorFlags.stillPresentUnset (x.channels.get ch) } := by
  simp [Monitor.clearReported, h]

end Status

/-! ## The obligations -/

/-- Settles O42: the entries taken are the oldest; the notice that is being sent is marked where it is of an entry. -/
theorem takeSpoilEntriesRemovesOldest : Obligations.TakeSpoilEntriesRemovesOldest := by
  refine ⟨entry_laidOut, fun rt count m s h => ?_⟩
  obtain ⟨hrefused, haccepted⟩ := takeSpoilEntries_handed h
  refine ⟨hrefused, fun hc => ⟨_, haccepted hc, fun removed msg hx => ?_, fun hx => ?_⟩⟩
  · rw [hx]
    rfl
  · cases htransmitter : s.link.transmitter
    case none => rfl
    case some x =>
      exact congrArg some (noteRemoval_other _ _ fun removed msg heq =>
        hx removed msg (htransmitter.trans (congrArg some heq)))

/-- Settles O43: the record's layout, and each channel's flags by whether the targets are set. -/
theorem getStatusReportsAndClears : Obligations.GetStatusReportsAndClears := by
  intro rt m s h
  refine ⟨s.monitor.clearReported, getStatus_handed h, status_laidOut s, rfl, fun ch => ⟨fun p hp => ?_, fun hp => ?_⟩⟩
  · rw [clearReported_channel hp, MonitorFlags.stillPresent, outsideWindow_eq, outsideWindow_eq]
  · rw [clearReported_channel_unset hp]
    rfl

/-- Settles O44: Set Notices by the range of its mask; an event by whether its class is enabled. -/
theorem noticesAreMaskedAndRaised : Obligations.NoticesAreMaskedAndRaised := by
  refine ⟨fun rt mask m s h => ⟨fun hbad => ?bad, fun hgood => ?good⟩, fun c s => ?raised⟩
  case bad =>
    rw [Refused, setNotices_handed h, if_neg (by omega), h.answer]
  case good =>
    refine ⟨s.link.transmitter.map (Transmission.masked ⟨mask.getLsbD 0, mask.getLsbD 1, mask.getLsbD 2⟩), ?_,
      fun c again msg hx => ?_, fun hx => ?_⟩
    · rw [Accepted, setNotices_handed h, if_pos hgood, setMask_eq]
      exact congrArg Host.Outcome.next (h.accept (by rfl) _)
    · rw [hx, Option.map_some, masked_flag]
      cases c <;> rfl
    · cases htransmitter : s.link.transmitter
      case none => rfl
      case some x =>
        exact congrArg some (masked_other _ fun c again msg heq =>
          hx c again msg (htransmitter.trans (congrArg some heq)))
  case raised =>
    intro on
    have hon : on = s.link.mask.enables c := by cases c <;> rfl
    rw [hon]
    refine ⟨fun hoff => raise_disabled hoff, fun hen => ⟨raise_enabled hen, (raise_other c s.link).1,
      fun again msg hx => raise_again hen hx, (raise_other c s.link).2, ?_⟩⟩
    exact congrArg (fun l => { s with link := l }) (raise_link s c)

end Sys2Proof.Machine
end

section
/-! The end of a message: a reply that completes its request, a notice that clears its flag, and Soft Reset, whose
effects take hold when the last byte of its reply has been sent. -/

namespace Sys2Proof.Machine

section Ends

variable {s t : State} {msg q : Message} {r : Reply} {stage : Stage}

theorem exec_messageTransmitted (h : s.resetPin = false) {x : Transmission} (hx : s.link.transmitter = some x) :
    exec .messageTransmitted s = .next (s.endTransmission x) := by
  refine (event_outOfReset h messageTransmitted).trans (congrArg Host.Outcome.next ?_)
  rw [messageTransmitted, hx]

theorem exec_messageTransmitted_idle (h : s.resetPin = false) (hx : s.link.transmitter = none) :
    exec .messageTransmitted s = .next s := by
  refine (event_outOfReset h messageTransmitted).trans (congrArg Host.Outcome.next ?_)
  rw [messageTransmitted, hx]

/-- R180: with nothing in the buffer no request is taken. -/
theorem takeNext_empty {l : Link} (hbuffer : l.buffer = []) : l.takeNext = l := by
  unfold Link.takeNext
  split
  · simp_all
  all_goals rfl

/-- R180: the oldest message of the buffer is taken and examined. -/
theorem takeNext_next {l : Link} {next : Message} {rest : List Message} (hcurrent : l.current = none)
    (hbuffer : l.buffer = next :: rest) :
    l.takeNext = { l with buffer := rest, current := some ⟨next, examineMessage next⟩ } := by
  simp [Link.takeNext, hcurrent, hbuffer]

/-- R189: only the ACCEPT of a Soft Reset brings its effects about. -/
theorem endsSoftReset_false (hcurrent : s.link.current = some ⟨q, stage⟩)
    (h : q.type ≠ 0x3E ∨ ∃ code detail, r = .refuse code detail) : s.endsSoftReset r = false := by
  rcases h with h | ⟨code, detail, rfl⟩
  · cases r
    · simp only [State.endsSoftReset, hcurrent]
      exact decide_eq_false h
    · simp only [State.endsSoftReset, hcurrent]
  · simp [State.endsSoftReset, hcurrent]

theorem endsSoftReset_true {items : List Byte} (hcurrent : s.link.current = some ⟨q, stage⟩) (h : q.type = 0x3E) :
    s.endsSoftReset (.accept items) = true := by
  simp [State.endsSoftReset, hcurrent, h]

/-- R180: the state in which a request is complete, before the next message is taken. -/
def State.completed (s : State) : State := { s with link := { s.link with transmitter := none, current := none } }

/-- R180: the end of a reply that brings no Soft Reset about. -/
theorem endTransmission_reply (hcurrent : s.link.current = some ⟨q, stage⟩)
    (h : q.type ≠ 0x3E ∨ ∃ code detail, r = .refuse code detail) :
    s.endTransmission ⟨.reply r, msg⟩ = { s.completed with link := s.completed.link.takeNext } := by
  have hends : State.endsSoftReset { s with link := { s.link with transmitter := none } } r = false :=
    endsSoftReset_false hcurrent h
  simp only [State.endTransmission, State.endReply, hends]
  rfl

/-- R189: the end of the ACCEPT of a Soft Reset. -/
theorem endTransmission_softReset {items : List Byte} (hcurrent : s.link.current = some ⟨q, stage⟩)
    (h : q.type = 0x3E) :
    s.endTransmission ⟨.reply (.accept items), msg⟩ =
      { s.completed.softReset with link := s.completed.softReset.link.takeNext } := by
  have hends : State.endsSoftReset { s with link := { s.link with transmitter := none } } (.accept items) = true :=
    endsSoftReset_true hcurrent h
  simp only [State.endTransmission, State.endReply, hends]
  rfl

/-! ## Soft Reset (R86, R114, R189) -/

theorem exec_softReset (rt : Byte) (s : State) :
    exec (.softReset rt) s = carryOut (.softReset rt) (State.accept []) s := rfl

/-- What every number of a table holds, changed. -/
theorem Table.get_map {α : Type} (f : α → α) (a : Table α) (k : Nat) :
    Table.get (a.map fun e => (e.1, f e.2)) k = (Table.get a k).map f := by
  induction a with
  | nil => rfl
  | cons e a ih =>
    simp only [List.map_cons, Table.get]
    split
    · rfl
    · exact ih

/-- R72: the run after a halt. -/
theorem Halted.run_eq {reason : HaltReason} (h : Halted reason s t) :
    t.run = { s.run with
      state := .stopped, pendingStop := .none
      halt := some ⟨reason, s.transport.position, s.jobs.live.head?.map Job.tag⟩ } := by
  obtain ⟨hstate, hstop, hmode, hleadIn⟩ := h.run
  have heta : t.run = ⟨t.run.state, t.run.mode, t.run.pendingStop, t.run.leadIn, t.run.halt⟩ := rfl
  rw [heta, h.record, hstate, hstop, hmode, hleadIn]

/-- R86: Soft Reset halts the run in any case, and spoils a frame in EXPOSING. -/
theorem softResetRun_halted (s : State) :
    Halted .softReset s s.softResetRun ∧ HaltFrame s s.softResetRun ∧
    (s.seq.phase = .exposing → s.softResetRun.log = ⟨s.log.entries ++ [⟨.spoiled, s.transport.position,
      (s.jobs.live.head?.map Job.tag).getD 0, .softReset, some s.seq.lineCounter, none⟩], s.log.unsent + 1⟩) ∧
    (s.seq.phase ≠ .exposing → s.softResetRun.log = s.log) := by
  cases hphase : s.seq.phase
  case exposing =>
    have hrun : s.softResetRun = s.spoil .softReset s.seq.lineCounter none := by rw [State.softResetRun, hphase]
    have hspoiled := spoil_spoiled .softReset s.seq.lineCounter none s
    rw [hrun]
    refine ⟨hspoiled.toHalted, spoil_frame _ _ _ s, fun _ => ?_, fun h => absurd rfl h⟩
    rw [← hspoiled.logged, ← hspoiled.unsent]
  all_goals
    have hrun : s.softResetRun = s.halt .softReset := by rw [State.softResetRun, hphase]
    obtain ⟨hframe, -, hlog⟩ := halt_frame .softReset s
    rw [hrun]
    exact ⟨halt_halted _ s, hframe, fun h => (nomatch h), fun _ => hlog⟩

/-- R189: the link after a Soft Reset that nothing is being sent beside. -/
theorem softReset_link (hidle : s.link.transmitter = none) :
    s.softReset.link = { s.link with
      buffer := [], transmitter := none, notices := ⟨true, false, false, false⟩, flags := ⟨false, false, false⟩ } := by
  obtain ⟨hhalted, hframe, -, -⟩ := softResetRun_halted s
  have htransmitter : s.softResetRun.link.transmitter = none :=
    (hframe.sending fun _ _ h => by rw [hidle] at h; cases h).trans hidle
  obtain ⟨notices, hnotice, hlink⟩ : ∃ notices : NoticeFlags, notices.halt = true ∧
      s.softResetRun.link = { s.link with notices := notices, transmitter := none } :=
    ⟨_, hhalted.notice, (congrArg State.link hframe.rest).trans (by rw [htransmitter])⟩
  show { s.softResetRun.link with
    buffer := [], notices := ⟨s.softResetRun.link.notices.halt, false, false, false⟩, flags := ⟨false, false, false⟩ } = _
  rw [hlink, hnotice]

/-- R169: each channel of the monitor after a Soft Reset. -/
theorem softReset_channel (s : State) (ch : Channel) :
    s.softReset.monitor.channels.get ch = { s.monitor.channels.get ch with
      expecting := false, breaches := 0, sum := 0, count := 0
      flags := ⟨false, false, false, false,
        (s.monitor.channels.get ch).flags.clockLost && (s.monitor.channels.get ch).lost, false⟩ } := by
  obtain ⟨-, hframe, -, -⟩ := softResetRun_halted s
  show (s.softResetRun.monitor.channels.map MonitorChannel.softReset).get ch = _
  rw [hframe.monitor, Rgb.get_map, Rgb.get_map]
  rfl

/-- R135: the transport after a Soft Reset. -/
theorem transport_softReset_moving {x : Transport} (h : x.state = .advancing ∨ x.state = .settling) :
    x.softReset = { x with
      state := .opened, pullDownTimer := none, settleTimer := none, settleEnds := none, series := none } := if_pos h

theorem transport_softReset_still {x : Transport} (h : x.state ≠ .advancing) (h' : x.state ≠ .settling) :
    x.softReset = x := if_neg (by simp [h, h'])

theorem softReset_transport (s : State) : s.softReset.transport = s.transport.softReset := by
  simp [State.softReset, State.softResetLink, State.softResetBlocks, State.dropJobs]

end Ends

/-! ## The obligations -/

/-- Settles O51: each kind of message at its end; a reply by whether a message waits in the buffer. -/
theorem endOfMessageTakesEffect : Obligations.EndOfMessageTakesEffect := by
  intro s msg hreset
  refine ⟨fun h => exec_messageTransmitted_idle hreset h, fun r q stage hx hcurrent hno => ⟨fun hbuffer => ?_,
    fun next rest hbuffer => ?_⟩, fun c again hx => ⟨_, exec_messageTransmitted hreset hx, ?_, fun c' hc => ?_, rfl⟩,
    fun removed hx => exec_messageTransmitted hreset hx, fun hx => exec_messageTransmitted hreset hx⟩
  · rw [exec_messageTransmitted hreset hx, endTransmission_reply hcurrent hno,
      takeNext_empty (l := s.completed.link) hbuffer]
    rfl
  · rw [exec_messageTransmitted hreset hx, endTransmission_reply hcurrent hno,
      takeNext_next (l := s.completed.link) rfl hbuffer]
    rfl
  · exact (NoticeFlags.get_set _ _ _ _).trans (if_pos rfl)
  · exact (NoticeFlags.get_set _ _ _ _).trans (if_neg hc)

/-- Settles O52: the run by its halt, the link with nothing left to take, and the other blocks by their Soft Reset
values. -/
theorem softResetTakesHoldAtReplyEnd : Obligations.SoftResetTakesHoldAtReplyEnd := by
  refine ⟨fun rt m s h => ?_, fun s q msg stage items hreset hx hcurrent htype => ?_⟩
  · rw [Accepted, exec_softReset, carryOut_handed h]
    exact congrArg Host.Outcome.next (h.accept rfl [])
  obtain ⟨hhalted, hframe, hspoiled, hkept⟩ := softResetRun_halted s.completed
  have hlink := softReset_link (s := s.completed) rfl
  have htables : s.completed.softResetRun.planes = s.planes ∧ s.completed.softResetRun.curves = s.curves := by
    simp [State.completed]
  refine ⟨_, (exec_messageTransmitted hreset hx).trans (congrArg Host.Outcome.next
    (endTransmission_softReset hcurrent htype)), hhalted.run_eq, hhalted.sequencer, hhalted.blanked, hspoiled, hkept,
    rfl, fun k => ?planes, fun k => ?curves, fun h => ?moving, fun h h' => ?still, rfl, ?targets,
    fun ch => softReset_channel s.completed ch, ?link, hframe.arbiter, ?_⟩
  case planes =>
    show Table.get (s.completed.softResetRun.planes.map fun e => (e.1, { e.2 with use := 0 })) k = _
    rw [Table.get_map (fun d : Plane => { d with use := 0 }), htables.1]
  case curves =>
    show Table.get (s.completed.softResetRun.curves.map fun e => (e.1, { e.2 with use := 0 })) k = _
    rw [Table.get_map (fun c : CurveSet => { c with use := 0 }), htables.2]
  case moving => exact (softReset_transport _).trans (transport_softReset_moving h)
  case still => exact (softReset_transport _).trans (transport_softReset_still h h')
  case targets =>
    show s.completed.softResetRun.monitor.targets = _
    rw [hframe.monitor]
    rfl
  case link =>
    show s.completed.softReset.link.takeNext = _
    rw [takeNext_empty (by rw [hlink]), hlink]
    rfl
  · simp [State.completed, hreset]

end Sys2Proof.Machine
end

section
/-! Requests that set values: Commit Curve, the options and timings of a stopped run, the scan's geometry, corrections
and calibration, and the power targets, with the checks that refuse them; and Read Monitor. -/

namespace Sys2Proof.Machine

section Curves

variable {s : State} {m : Message} {c : CurveSet}

/-! ## The exposure products of a curve (R53) -/

theorem fallsAt_lt {es : List DriveEntry} {v : Nat} (h : fallsAt es v) : v < es.length := by
  obtain ⟨_, _, _, _, hv, _⟩ := h
  exact (List.getElem?_eq_some_iff.1 hv).1

theorem not_fallsAt_zero (es : List DriveEntry) : ¬ fallsAt es 0 := fun ⟨_, _, h, _⟩ => by omega

/-- A fall behind the first two entries is one of the list without the first. -/
theorem fallsAt_cons {a : DriveEntry} {es : List DriveEntry} {v : Nat} (h : 1 ≤ v) :
    fallsAt (a :: es) (v + 1) ↔ fallsAt es v := by
  obtain ⟨v, rfl⟩ : ∃ n, v = n + 1 := ⟨v - 1, by omega⟩
  simp [fallsAt]

/-- A fall at the second entry. -/
theorem fallsAt_one {a b : DriveEntry} {es : List DriveEntry} :
    fallsAt (a :: b :: es) 1 ↔ b.product < a.product := by
  simp [fallsAt, DriveEntry.product]

theorem firstDecrease_none {v : Nat} {es : List DriveEntry} (h : firstDecrease v es = none) (i : Nat) :
    ¬ fallsAt es i := by
  induction es generalizing v i with
  | nil => exact fun hf => absurd (fallsAt_lt hf) (by simp)
  | cons a es ih =>
    cases es with
    | nil =>
      intro hf
      have hlt := fallsAt_lt hf
      obtain rfl : i = 0 := by simpa using hlt
      exact not_fallsAt_zero _ hf
    | cons b rest =>
      rw [firstDecrease] at h
      split at h
      · cases h
      · rename_i hkept
        intro hf
        match i with
        | 0 => exact not_fallsAt_zero _ hf
        | 1 => exact hkept (fallsAt_one.1 hf)
        | i + 2 => exact ih h (i + 1) ((fallsAt_cons (by omega)).1 hf)

theorem firstDecrease_some {v w : Nat} {es : List DriveEntry} (h : firstDecrease v es = some w) :
    ∃ i, w = v + i ∧ fallsAt es i ∧ ∀ k, k < i → ¬ fallsAt es k := by
  induction es generalizing v with
  | nil => cases h
  | cons a es ih =>
    cases es with
    | nil => cases h
    | cons b rest =>
      rw [firstDecrease] at h
      split at h
      · rename_i hfall
        cases h
        refine ⟨1, rfl, fallsAt_one.2 hfall, fun k hk => ?_⟩
        obtain rfl : k = 0 := by omega
        exact not_fallsAt_zero _
      · rename_i hkept
        obtain ⟨i, rfl, hfall, hfirst⟩ := ih h
        obtain ⟨hi, -⟩ : 1 ≤ i ∧ True := ⟨by obtain ⟨-, -, hi, -⟩ := hfall; exact hi, trivial⟩
        refine ⟨i + 1, by omega, (fallsAt_cons hi).2 hfall, fun k hk hf => ?_⟩
        match k with
        | 0 => exact not_fallsAt_zero _ hf
        | 1 => exact hkept (fallsAt_one.1 hf)
        | k + 2 => exact hfirst (k + 1) (by omega) ((fallsAt_cons (by omega)).1 hf)

/-- R53: the exposure product falls at a numbered entry of a set: channel × 4096 + entry. -/
def CurveSet.FallsAt (c : CurveSet) (n : Nat) : Prop := ∃ v,
  (n = v ∧ fallsAt c.entries.red v) ∨ (n = 4096 + v ∧ fallsAt c.entries.green v) ∨
  (n = 8192 + v ∧ fallsAt c.entries.blue v)

theorem decrease_none (h : c.decrease = none) (n : Nat) : ¬ c.FallsAt n := by
  unfold CurveSet.decrease at h
  split at h
  · cases h
  · rename_i hred
    split at h
    · cases h
    · rename_i hgreen
      have hblue : firstDecrease 0 c.entries.blue = none := by simpa using h
      rintro ⟨v, ⟨-, hf⟩ | ⟨-, hf⟩ | ⟨-, hf⟩⟩
      · exact firstDecrease_none hred v hf
      · exact firstDecrease_none hgreen v hf
      · exact firstDecrease_none hblue v hf

/-- R53: the entry that is named is the first at which the product falls, since a channel has at most 4096. -/
theorem decrease_some {n : Nat} (h : c.decrease = some n) (hred : c.entries.red.length ≤ 4096)
    (hgreen : c.entries.green.length ≤ 4096) : c.FallsAt n ∧ ∀ k, k < n → ¬ c.FallsAt k := by
  have hredLt {v : Nat} (hf : fallsAt c.entries.red v) : v < 4096 := (fallsAt_lt hf).trans_le hred
  have hgreenLt {v : Nat} (hf : fallsAt c.entries.green v) : v < 4096 := (fallsAt_lt hf).trans_le hgreen
  unfold CurveSet.decrease at h
  split at h
  · rename_i w hw
    cases h
    obtain ⟨i, rfl, hfall, hfirst⟩ := firstDecrease_some hw
    rw [Nat.zero_add]
    refine ⟨⟨i, .inl ⟨rfl, hfall⟩⟩, fun k hk => ?_⟩
    have hi := hredLt hfall
    rintro ⟨v, ⟨rfl, hf⟩ | ⟨rfl, -⟩ | ⟨rfl, -⟩⟩
    · exact hfirst _ hk hf
    · omega
    · omega
  · rename_i hnoRed
    split at h
    · rename_i w hw
      cases h
      obtain ⟨i, rfl, hfall, hfirst⟩ := firstDecrease_some hw
      rw [Nat.zero_add]
      refine ⟨⟨i, .inr (.inl ⟨rfl, hfall⟩)⟩, fun k hk => ?_⟩
      have hi := hgreenLt hfall
      rintro ⟨v, ⟨rfl, hf⟩ | ⟨rfl, hf⟩ | ⟨rfl, -⟩⟩
      · exact firstDecrease_none hnoRed _ hf
      · exact hfirst v (by omega) hf
      · omega
    · rename_i hnoGreen
      obtain ⟨w, hw, rfl⟩ := Option.map_eq_some_iff.1 h
      obtain ⟨i, rfl, hfall, hfirst⟩ := firstDecrease_some hw
      rw [Nat.zero_add]
      refine ⟨⟨i, .inr (.inr ⟨rfl, hfall⟩)⟩, fun k hk => ?_⟩
      rintro ⟨v, ⟨rfl, hf⟩ | ⟨rfl, hf⟩ | ⟨rfl, hf⟩⟩
      · exact firstDecrease_none hnoRed _ hf
      · exact firstDecrease_none hnoGreen _ hf
      · exact hfirst v (by omega) hf

/-- R53: the first channel that is not fully loaded. -/
theorem incomplete_of_short {n : Nat} (h : (n = 0 ∧ c.entries.red.length < 4096) ∨
    (n = 1 ∧ 4096 ≤ c.entries.red.length ∧ c.entries.green.length < 4096) ∨
    (n = 2 ∧ 4096 ≤ c.entries.red.length ∧ 4096 ≤ c.entries.green.length ∧ c.entries.blue.length < 4096)) :
    ∃ ch, c.incomplete = some ch ∧ ch.code = n := by
  obtain ⟨rfl, hr⟩ | ⟨rfl, hr, hg⟩ | ⟨rfl, hr, hg, hb⟩ := h
  · exact ⟨.red, by simp [CurveSet.incomplete, Rgb.first, Config.curveEntries, hr], rfl⟩
  · exact ⟨.green, by simp [CurveSet.incomplete, Rgb.first, Config.curveEntries, Nat.not_lt.2 hr, hg], rfl⟩
  · exact ⟨.blue, by
      simp [CurveSet.incomplete, Rgb.first, Config.curveEntries, Nat.not_lt.2 hr, Nat.not_lt.2 hg, hb], rfl⟩

theorem incomplete_none (hr : 4096 ≤ c.entries.red.length) (hg : 4096 ≤ c.entries.green.length)
    (hb : 4096 ≤ c.entries.blue.length) : c.incomplete = none := by
  simp [CurveSet.incomplete, Rgb.first, Config.curveEntries, Nat.not_lt.2 hr, Nat.not_lt.2 hg, Nat.not_lt.2 hb]

/-! ## Commit Curve (R53) -/

theorem exec_commitCurve (rt set : Byte) (s : State) :
    exec (.commitCurve rt set) s = carryOut (.commitCurve rt set) (commitCurveBlock set) s := rfl

/-- R53: the checks of Commit Curve on a set that is LOADING or READY. -/
def commitCurveChecks (c : CurveSet) : List Check :=
  [ (c.ready, .notReady, 0xFFFF),
    (c.incomplete.isSome, .notReady, (c.incomplete.map Channel.code).getD 0),
    (c.decrease.isSome, .notMonotonic, c.decrease.getD 0) ]

theorem commitCurve_outOfRange {rt set : Byte} (h : s.Handed (.commitCurve rt set) m) (hset : 15 < set.toNat) :
    Refused (.commitCurve rt set) m s .badValue 1 := by
  rw [Refused, exec_commitCurve, carryOut_handed h, commitCurveBlock, withSet, if_pos (by simp [Config.curveSets]; omega),
    h.answer]

theorem commitCurve_empty {rt set : Byte} (h : s.Handed (.commitCurve rt set) m) (hset : set.toNat ≤ 15)
    (hnone : Table.get s.curves set.toNat = none) : Refused (.commitCurve rt set) m s .notReady 0xFFFF := by
  rw [Refused, exec_commitCurve, carryOut_handed h, commitCurveBlock, withSet,
    if_neg (by simp [Config.curveSets]; omega), hnone, h.answer]

/-- R53: the set is examined, and is READY where every check passes. -/
theorem commitCurve_examined {rt set : Byte} (h : s.Handed (.commitCurve rt set) m) (hset : set.toNat ≤ 15)
    (hc : Table.get s.curves set.toNat = some c) :
    FirstRefusal (.commitCurve rt set) m s (commitCurveChecks c) ∧
    (passes (commitCurveChecks c) → Accepted (.commitCurve rt set) m s
      { s with curves := Table.put s.curves set.toNat { c with ready := true } } []) := by
  refine h.examined_accept rfl ?_
  rw [exec_commitCurve, carryOut_handed h, commitCurveBlock, withSet, if_neg (by simp [Config.curveSets]; omega), hc]
  rfl

end Curves

section Settings

variable {s : State} {m : Message} {rt : Byte}

/-! ## Options and timings of a stopped run (R61, R132) -/

theorem exec_setDriveOptions (rt placement : Byte) (s : State) :
    exec (.setDriveOptions rt placement) s =
      carryOut (.setDriveOptions rt placement) (setDriveOptionsBlock placement) s := rfl

theorem exec_setTransportTiming (rt : Byte) (timeout : Half) (settle : Byte) (s : State) :
    exec (.setTransportTiming rt timeout settle) s =
      carryOut (.setTransportTiming rt timeout settle) (setTransportTimingBlock timeout settle) s := rfl

/-- R61: a wire value names no placement, or one of the three in order. -/
theorem placementOf_cases (b : Byte) :
    (2 < b.toNat ∧ placementOf b = none) ∨
    (b.toNat ≤ 2 ∧ placementOf b =
      some (if b.toNat = 0 then .leading else if b.toNat = 1 then .centered else .trailing)) := by
  unfold placementOf
  split <;> simp_all
  omega

theorem setDriveOptions_handed {b : Byte} (h : s.Handed (.setDriveOptions rt b) m) :
    let checks : List Check := [(decide (s.run.state ≠ .stopped), .busy, 0), (decide (2 < b.toNat), .badValue, 1)]
    FirstRefusal (.setDriveOptions rt b) m s checks ∧
    (passes checks → Accepted (.setDriveOptions rt b) m s
      { s with placement := if b.toNat = 0 then .leading else if b.toNat = 1 then .centered else .trailing } []) := by
  refine h.examined_accept rfl ?_
  rw [exec_setDriveOptions, carryOut_handed h, setDriveOptionsBlock]
  refine congrArg Host.Outcome.next (examine_congr ?_ fun hp => ?_)
  · obtain ⟨hlarge, hnone⟩ | ⟨hsmall, hsome⟩ := placementOf_cases b
    · simp [hnone, hlarge]
    · simp [hsome, Nat.not_lt.2 hsmall]
  · have hrange := hp (decide (2 < b.toNat), .badValue, 1) (by simp)
    obtain ⟨hlarge, -⟩ | ⟨-, hsome⟩ := placementOf_cases b
    · exact absurd hlarge (of_decide_eq_false hrange)
    · rw [hsome, Option.getD_some]

theorem setTransportTiming_handed {timeout : Half} {settle : Byte}
    (h : s.Handed (.setTransportTiming rt timeout settle) m) :
    let checks : List Check :=
      [ (decide (s.run.state ≠ .stopped), .busy, 0),
        (decide (¬ (10 ≤ timeout.toNat ∧ timeout.toNat ≤ 2000)), .badValue, 1),
        (decide (¬ (1 ≤ settle.toNat ∧ settle.toNat ≤ 250)), .badValue, 2) ]
    FirstRefusal (.setTransportTiming rt timeout settle) m s checks ∧
    (passes checks → Accepted (.setTransportTiming rt timeout settle) m s
      { s with transport := { s.transport with timeout := timeout.toNat, settle := settle.toNat } } []) := by
  refine h.examined_accept rfl ?_
  rw [exec_setTransportTiming, carryOut_handed h, setTransportTimingBlock, outOfRange_eq, outOfRange_eq]
  rfl

/-! ## The scan's geometry, corrections and calibration (R138, R140, R142) -/

theorem exec_setScanGeometry (rt : Byte) (p : GeometryItems) (s : State) :
    exec (.setScanGeometry rt p) s = carryOut (.setScanGeometry rt p) (setScanGeometryBlock p) s := rfl

theorem exec_loadFacetCorrections (rt count : Byte) (values : List Half) (s : State) :
    exec (.loadFacetCorrections rt count values) s =
      carryOut (.loadFacetCorrections rt count values) (loadFacetCorrectionsBlock count values) s := rfl

theorem exec_calibrateScan (rt : Byte) (s : State) :
    exec (.calibrateScan rt) s = carryOut (.calibrateScan rt) calibrateScanBlock s := rfl

/-- A request that raises a class leaves the current request in place. -/
theorem raise_current_request (s : State) (c : FlagClass) : (s.raise c).link.current = s.link.current :=
  Keeps.raise_current _ _

/-- R138: the checks of Set Scan Geometry as the manual gives them. -/
theorem setScanGeometryChecks_eq (p : GeometryItems) (s : State) :
    setScanGeometryChecks p s =
      [ (decide (s.run.state ≠ .stopped), .busy, 0),
        (decide (s.scan.state = .calibrating), .busy, 1),
        (decide (¬ (4 ≤ p.facets.toNat ∧ p.facets.toNat ≤ 16)), .badValue, 1),
        (decide (¬ (10000 ≤ p.period.toNat ∧ p.period.toNat ≤ 200000)), .badValue, 2),
        (decide (¬ (2000 ≤ p.pixelPeriod.toNat ∧ p.pixelPeriod.toNat ≤ 40000)), .badValue, 3),
        (decide (¬ (50 ≤ p.tolerance.toNat ∧ p.tolerance.toNat ≤ 5000)), .badValue, 4),
        (decide (¬ (1 ≤ p.missLimit.toNat ∧ p.missLimit.toNat ≤ 8)), .badValue, 5),
        (decide (¬ (1 ≤ p.revolutions.toNat ∧ p.revolutions.toNat ≤ 64)), .badValue, 6) ] := by
  simp only [setScanGeometryChecks, outOfRange_eq]

/-! ## The power targets (R166, R167) -/

theorem exec_setPowerTargets (rt : Byte) (p : PowerItems) (s : State) :
    exec (.setPowerTargets rt p) s = carryOut (.setPowerTargets rt p) (setPowerTargetsBlock p) s := rfl

theorem exec_readMonitor (rt : Byte) (s : State) :
    exec (.readMonitor rt) s = carryOut (.readMonitor rt) readMonitorBlock s := rfl

/-- One row that fails at the first channel with a property, with a detail that rests on its number, refuses as the
three rows of the channels do. -/
theorem firstFailing_channels {α : Type} (p : α → Bool) (x : Rgb α) (code : RefusalCode) (detail : Nat → Nat)
    (rest : List Check) :
    firstFailing (((x.first p).isSome, code, detail (((x.first p).map Channel.code).getD 0)) :: rest) =
      firstFailing ((p x.red, code, detail 0) :: (p x.green, code, detail 1) :: (p x.blue, code, detail 2) :: rest) := by
  unfold Rgb.first
  cases p x.red
  · cases p x.green
    · cases p x.blue <;> rfl
    · rfl
  · rfl

/-- Tables that begin with the same row refuse alike where their rests do. -/
theorem firstFailing_cons {a b : List Check} (c : Check) (h : firstFailing a = firstFailing b) :
    firstFailing (c :: a) = firstFailing (c :: b) := by
  simp only [firstFailing, h]

/-- R166: the checks of Set Power Targets as the manual gives them, channel by channel. -/
def powerTargetsRows (p : PowerItems) (s : State) : List Check :=
  let badSoft (t : TargetItems) : Bool := decide (¬ (1 ≤ t.soft.toNat ∧ t.soft.toNat ≤ 1024))
  let badHard (t : TargetItems) : Bool := decide (¬ (t.soft.toNat < t.hard.toNat ∧ t.hard.toNat ≤ 2048))
  [ (decide (s.run.state ≠ .stopped), .busy, 0),
    (decide (p.channels.red.target.toNat = 0), .badValue, 1),
    (decide (p.channels.green.target.toNat = 0), .badValue, 4),
    (decide (p.channels.blue.target.toNat = 0), .badValue, 7),
    (badSoft p.channels.red, .badValue, 2),
    (badSoft p.channels.green, .badValue, 5),
    (badSoft p.channels.blue, .badValue, 8),
    (badHard p.channels.red, .badValue, 3),
    (badHard p.channels.green, .badValue, 6),
    (badHard p.channels.blue, .badValue, 9),
    (decide (16 < p.hardCount.toNat), .badValue, 10),
    (decide (¬ (16 ≤ p.osr.toNat ∧ p.osr.toNat ≤ 256)), .badValue, 11) ]

/-- R166: the model's table and the manual's refuse alike: each item's row names the first channel that breaks it. -/
theorem firstFailing_setPowerTargetsChecks (p : PowerItems) (s : State) :
    firstFailing (setPowerTargetsChecks p s) = firstFailing (powerTargetsRows p s) := by
  have hhard : (fun t : TargetItems => decide (t.hard.toNat ≤ t.soft.toNat ∨ 2048 < t.hard.toNat)) =
      fun t => decide (¬ (t.soft.toNat < t.hard.toNat ∧ t.hard.toNat ≤ 2048)) :=
    funext fun t => decide_eq_decide.2 (by omega)
  simp only [setPowerTargetsChecks, outOfRange_eq, hhard]
  refine firstFailing_cons _ ?_
  rw [firstFailing_channels _ p.channels .badValue (1 + 3 * ·)]
  refine firstFailing_cons _ (firstFailing_cons _ (firstFailing_cons _ ?_))
  rw [firstFailing_channels _ p.channels .badValue (2 + 3 * ·)]
  refine firstFailing_cons _ (firstFailing_cons _ (firstFailing_cons _ ?_))
  rw [firstFailing_channels _ p.channels .badValue (3 + 3 * ·)]

/-- R166: Set Power Targets is examined by the manual's table, then sets the targets and resets the trims. -/
theorem setPowerTargets_handed {p : PowerItems} (h : s.Handed (.setPowerTargets rt p) m) :
    FirstRefusal (.setPowerTargets rt p) m s (powerTargetsRows p s) ∧
    (passes (powerTargetsRows p s) → Accepted (.setPowerTargets rt p) m s
      { s with monitor := ⟨some (powerTargetsOf p), s.monitor.channels.map MonitorChannel.retarget⟩ } []) := by
  refine h.examined_accept rfl ?_
  rw [exec_setPowerTargets, carryOut_handed h, setPowerTargetsBlock]
  exact congrArg Host.Outcome.next (examine_congr (firstFailing_setPowerTargetsChecks p s) fun _ => rfl)

/-- R167: the eight bytes of a channel, the mean present where it is valid. -/
theorem report_eq (c : MonitorChannel) :
    c.report = u16 c.latest ++ u8 (if c.isFresh then 1 else 0) ++ u16 c.trim ++
      (if c.valid then u8 1 ++ u16 c.mean else [0, 0, 0]) := by
  rw [MonitorChannel.report]
  cases c.valid <;> cases c.isFresh <;> simp [bitAt, u8, u16, halfBytes, loByte, hiByte]

end Settings

/-! ## The obligations -/

/-- Settles O11: an EMPTY or READY set, an unloaded channel and a fall are the three checks' failures, in order. -/
theorem commitCurveMakesReady : Obligations.CommitCurveMakesReady := by
  intro rt set m s h
  refine ⟨commitCurve_outOfRange h, fun hset => ⟨fun hall => ?_, fun c hc hready => ⟨fun n hshort => ?_,
    fun hloaded hr hg hb => ⟨fun n hfalls hfirst => ?_, fun hnofall => ?_⟩⟩⟩⟩
  · cases hc : Table.get s.curves set.toNat with
    | none => exact commitCurve_empty h hset hc
    | some c =>
      have hready : c.ready = true := by simpa [hc] using hall
      refine (commitCurve_examined h hset hc).1 [] .notReady 0xFFFF
        [(c.incomplete.isSome, .notReady, (c.incomplete.map Channel.code).getD 0),
          (c.decrease.isSome, .notMonotonic, c.decrease.getD 0)] ?_ (by simp [passes])
      rw [commitCurveChecks, hready, List.nil_append]
  · obtain ⟨ch, hch, rfl⟩ := incomplete_of_short hshort
    refine (commitCurve_examined h hset hc).1 [(false, .notReady, 0xFFFF)] .notReady ch.code
      [(c.decrease.isSome, .notMonotonic, c.decrease.getD 0)] ?_ (by simp [passes])
    simp only [commitCurveChecks, hready, hch]
    rfl
  all_goals
    have hred : 4096 ≤ c.entries.red.length := Nat.not_lt.1 fun hlt => hloaded 0 (.inl ⟨rfl, hlt⟩)
    have hgreen : 4096 ≤ c.entries.green.length :=
      Nat.not_lt.1 fun hlt => hloaded 1 (.inr (.inl ⟨rfl, hred, hlt⟩))
    have hblue : 4096 ≤ c.entries.blue.length :=
      Nat.not_lt.1 fun hlt => hloaded 2 (.inr (.inr ⟨rfl, hred, hgreen, hlt⟩))
    have hcomplete := incomplete_none hred hgreen hblue
  · cases hd : c.decrease with
    | none => exact absurd hfalls (decrease_none hd n)
    | some k =>
      obtain ⟨hk, hkfirst⟩ := decrease_some hd hr hg
      obtain rfl : k = n := by
        rcases Nat.lt_trichotomy k n with hlt | heq | hlt
        · exact absurd hk (hfirst k hlt)
        · exact heq
        · exact absurd hfalls (hkfirst n hlt)
      refine (commitCurve_examined h hset hc).1 [(false, .notReady, 0xFFFF), (false, .notReady, 0)] .notMonotonic k []
        ?_ (by simp [passes])
      simp only [commitCurveChecks, hready, hcomplete, hd]
      rfl
  · have hd : c.decrease = none := by
      cases hd : c.decrease with
      | none => rfl
      | some k => exact absurd (decrease_some hd hr hg).1 (hnofall k)
    refine (commitCurve_examined h hset hc).2 ?_
    simp [passes, commitCurveChecks, hready, hcomplete, hd]

/-- Settles O13: each request by its table. -/
theorem stoppedRunOptionsAreSet : Obligations.StoppedRunOptionsAreSet :=
  fun _ _ _ => ⟨fun _ => setDriveOptions_handed, fun _ _ => setTransportTiming_handed⟩

/-- Settles O33: each request by its table, and what it sets. -/
theorem scanRequestsSetUpScan : Obligations.ScanRequestsSetUpScan := by
  intro rt m s
  refine ⟨fun p h => ?geometry, fun count values h => ?corrections, fun h => ?calibrate⟩
  case geometry =>
    refine h.examined_accept (raise_current_request _ _) ?_
    rw [exec_setScanGeometry, carryOut_handed h, setScanGeometryBlock, setScanGeometryChecks_eq]
    rfl
  case corrections =>
    refine h.examined_accept rfl ?_
    rw [exec_loadFacetCorrections, carryOut_handed h]
    rfl
  case calibrate =>
    refine h.examined_accept (raise_current_request _ _) ?_
    rw [exec_calibrateScan, carryOut_handed h]
    rfl

/-- Settles O39: Set Power Targets by its table; the report channel by channel. -/
theorem powerTargetsAndReadMonitor : Obligations.PowerTargetsAndReadMonitor := by
  intro rt m s
  refine ⟨fun p h => setPowerTargets_handed h, fun h => ?_⟩
  intro report
  have hreport (c : MonitorChannel) : report c = c.report := (report_eq c).symm
  rw [Accepted, exec_readMonitor, carryOut_handed h, hreport, hreport, hreport]
  refine congrArg Host.Outcome.next ((h.accept (by rfl) _).trans ?_)
  rw [Rgb.toList]
  simp only [List.flatMap_cons, List.flatMap_nil, List.append_nil, List.append_assoc]

end Sys2Proof.Machine
end

section
/-! The Job Store's requests: the table of Queue Job against the model's checks, what an accepted job adds, Cancel Job and
Query Job; and the outputs to the modulator drivers. -/

namespace Sys2Proof.Machine

/-! ## Tables of checks -/

/-- One row that fails at the first item of a list with a property refuses as one row per item does. -/
theorem firstFailing_find {α : Type} (p : α → Bool) (detail : α → Nat) (code : RefusalCode) (rest : List Check)
    (l : List α) :
    firstFailing (((l.find? p).isSome, code, ((l.find? p).map detail).getD 0) :: rest) =
      firstFailing (l.map (fun x => (p x, code, detail x)) ++ rest) := by
  induction l with
  | nil => rfl
  | cons x l ih =>
    cases hx : p x
    · rw [List.find?_cons_of_neg (by simp [hx]), ih]
      simp [firstFailing, hx]
    · simp [firstFailing, hx]

/-- Tables that begin alike refuse alike where their rests do once the beginning passes. -/
theorem firstFailing_append_congr {a b c : List Check} (h : passes a → firstFailing b = firstFailing c) :
    firstFailing (a ++ b) = firstFailing (a ++ c) := by
  induction a with
  | nil => exact h (by simp [passes])
  | cons row a ih =>
    obtain ⟨fails, code, detail⟩ := row
    cases fails
    · simpa [firstFailing] using ih fun hp => h (by simpa [passes] using hp)
    · simp [firstFailing]

section QueueJob

variable {s : State} {m : Message} {rt : Byte} {p : QueueJobItems}

/-! ## The checks of Queue Job (R7, R8) -/

theorem exec_queueJob (rt : Byte) (p : QueueJobItems) (s : State) :
    exec (.queueJob rt p) s = carryOut (.queueJob rt p) (queueJobBlock p) s := rfl

theorem ofWire_isNone (w : Half) : (Selector.ofWire w).isNone = !selectorOk w := by
  obtain ⟨hbad, hnone⟩ | ⟨x, hok, hsome, -⟩ := Selector.ofWire_cases w
  · simp [hbad, hnone]
  · simp [hok, hsome]

theorem presenceOf_eq (kind : Nat) : presenceOf kind = if kind = 0 then 3 else if kind = 1 then 6 else 0 := by
  unfold presenceOf
  split <;> simp_all

/-- R8: the tag of a LIVE or RESULT slot is one of the tags of all of them. -/
theorem holdsTag_eq (j : JobStore) (tag : Nat) :
    j.holdsTag tag = ((j.live ++ j.results).map Job.tag).contains tag := by
  rw [Bool.eq_iff_iff]
  simp [JobStore.holdsTag]

/-- R7: the rows of the payload check, one for each item. -/
def itemRows (p : QueueJobItems) : List Check := (brokenItems p).map fun row => (row.1, .badValue, row.2)

/-- R8: the plane of a selector does not fit the raster. -/
def State.unfit (s : State) (wire : Nat) : Bool := (Table.get s.planes wire).any fun d =>
  decide (d.width ≠ (s.reel.map Reel.width).getD 0 ∨ d.limit < (s.reel.map Reel.lines).getD 0)

/-- R8 checks 5 to 7, with planes channel by channel. -/
def resourceRows (p : QueueJobItems) (s : State) : List Check :=
  [ (decide (p.kind.toNat ≤ 1) && !((Table.get s.curves p.curveSet.toNat).any CurveSet.ready), .notReady,
      p.curveSet.toNat),
    (decide (p.kind.toNat = 0) && (Table.get s.planes p.selectors.red.toNat).isNone, .notDefined,
      p.selectors.red.toNat),
    (decide (p.kind.toNat = 0) && (Table.get s.planes p.selectors.green.toNat).isNone, .notDefined,
      p.selectors.green.toNat),
    (decide (p.kind.toNat = 0) && (Table.get s.planes p.selectors.blue.toNat).isNone, .notDefined,
      p.selectors.blue.toNat),
    (decide (p.kind.toNat = 0) && s.unfit p.selectors.red.toNat, .bounds, p.selectors.red.toNat),
    (decide (p.kind.toNat = 0) && s.unfit p.selectors.green.toNat, .bounds, p.selectors.green.toNat),
    (decide (p.kind.toNat = 0) && s.unfit p.selectors.blue.toNat, .bounds, p.selectors.blue.toNat) ]

/-- The manual's table in its three parts. -/
theorem queueRows_eq (p : QueueJobItems) (s : State) :
    queueRows p s =
      (s.jobs.isFull, .full, s.jobs.results.length) :: (s.reel.isNone, .noReel, 0) ::
        (itemRows p ++ (s.jobs.holdsTag p.tag.toNat, .duplicateTag, p.tag.toNat) :: resourceRows p s) := by
  simp only [itemRows, brokenItems, ofWire_isNone, presenceOf_eq, holdsTag_eq, List.map_cons, List.map_nil]
  rfl

/-! ## The work of a well-formed payload (R4, R5) -/

theorem itemRows_kind (hp : passes (itemRows p)) : p.kind.toNat ≤ 2 := by
  have hkind := hp (decide (2 < p.kind.toNat), .badValue, 2) (by simp [itemRows, brokenItems])
  simpa using hkind

/-- An EXPOSE payload's work names the planes of its three selectors. -/
theorem queuedWork_expose (hp : passes (itemRows p)) (hk : p.kind.toNat = 0) :
    ∃ planes : Rgb Selector, queuedWork p = .expose planes p.curveSet.toNat (decide (p.release.toNat ≠ 0)) ∧
      (planes.red.inTable ∧ planes.red.wire = p.selectors.red.toNat) ∧
      (planes.green.inTable ∧ planes.green.wire = p.selectors.green.toNat) ∧
      (planes.blue.inTable ∧ planes.blue.wire = p.selectors.blue.toNat) := by
  have hpresence := hp (decide (p.presence.toNat % 8 ≠ presenceOf p.kind.toNat), .badValue, 3)
    (by simp [itemRows, brokenItems])
  have hmark : p.presence.getLsbD 0 = true := by
    simp only [hk, presenceOf, ne_eq, decide_eq_false_iff_not, not_not] at hpresence
    simp only [BitVec.getLsbD, Nat.testBit_zero, decide_eq_true_eq]
    omega
  have hwell {w : Half} {n : Nat} (hrow : (p.presence.getLsbD 0 && (Selector.ofWire w).isNone, RefusalCode.badValue, n)
      ∈ itemRows p) : ∃ x, Selector.ofWire w = some x ∧ x.inTable ∧ x.wire = w.toNat := by
    have hnone := hp _ hrow
    rw [hmark, Bool.true_and] at hnone
    obtain ⟨-, h⟩ | ⟨x, -, hx, hwire, -⟩ := Selector.ofWire_cases w
    · simp [h] at hnone
    · exact ⟨x, hx, Selector.ofWire_inTable hx, hwire⟩
  obtain ⟨r, hr, hred⟩ := hwell (w := p.selectors.red) (n := 4) (by simp [itemRows, brokenItems])
  obtain ⟨g, hg, hgreen⟩ := hwell (w := p.selectors.green) (n := 5) (by simp [itemRows, brokenItems])
  obtain ⟨b, hb, hblue⟩ := hwell (w := p.selectors.blue) (n := 6) (by simp [itemRows, brokenItems])
  refine ⟨⟨r, g, b⟩, ?_, hred, hgreen, hblue⟩
  simp only [queuedWork, hk, hr, hg, hb]

theorem queuedWork_flash (hk : p.kind.toNat = 1) :
    queuedWork p = .flash p.curveSet.toNat (p.flash.map BitVec.toNat) := by
  simp only [queuedWork, hk]

theorem queuedWork_blank (hk : p.kind.toNat = 2) : queuedWork p = .blank := by
  simp only [queuedWork, hk]

/-! ## The two tables refuse alike (R8) -/

theorem curveNotReady_eq {w : Work} {n : Nat} (hw : w.curve = some n) :
    s.curveNotReady w = !((Table.get s.curves n).any CurveSet.ready) := by
  rw [State.curveNotReady, hw]
  cases hget : Table.get s.curves n <;> simp [hget]

theorem misfitPlane_expose (s : State) (planes : Rgb Selector) (set : Nat) (release : Bool) :
    s.misfitPlane (.expose planes set release) = planes.toList.find? fun sel => s.unfit sel.wire := by
  rw [State.misfitPlane]
  congr 1
  funext sel
  rw [State.unfit]
  cases Table.get s.planes sel.wire <;> rfl

/-- R8 checks 5 to 7: the model's rows for the work a well-formed payload describes, and the manual's. -/
theorem firstFailing_resources (hp : passes (itemRows p)) :
    firstFailing
      [ (s.curveNotReady (queuedWork p), .notReady, p.curveSet.toNat),
        ((s.undefinedPlane (queuedWork p)).isSome, .notDefined,
          ((s.undefinedPlane (queuedWork p)).map Selector.wire).getD 0),
        ((s.misfitPlane (queuedWork p)).isSome, .bounds,
          ((s.misfitPlane (queuedWork p)).map Selector.wire).getD 0) ] =
      firstFailing (resourceRows p s) := by
  have hkind := itemRows_kind hp
  obtain hk | hk | hk : p.kind.toNat = 0 ∨ p.kind.toNat = 1 ∨ p.kind.toNat = 2 := by omega
  · obtain ⟨planes, hw, ⟨-, hred⟩, ⟨-, hgreen⟩, ⟨-, hblue⟩⟩ := queuedWork_expose hp hk
    simp only [hw, curveNotReady_eq (w := .expose planes _ _) rfl, State.undefinedPlane, misfitPlane_expose,
      resourceRows, hk, ← hred, ← hgreen, ← hblue]
    refine firstFailing_cons _ ?_
    rw [firstFailing_find (fun sel => (Table.get s.planes sel.wire).isNone) Selector.wire]
    refine firstFailing_append_congr
      (a := planes.toList.map fun sel => ((Table.get s.planes sel.wire).isNone, .notDefined, sel.wire)) fun _ => ?_
    rw [firstFailing_find (fun sel => s.unfit sel.wire) Selector.wire]
    rfl
  · rw [queuedWork_flash hk, curveNotReady_eq (w := .flash _ _) rfl]
    simp [resourceRows, hk, State.undefinedPlane, State.misfitPlane, firstFailing]
  · rw [queuedWork_blank hk]
    simp [resourceRows, hk, State.undefinedPlane, State.misfitPlane, State.curveNotReady, Work.curve, firstFailing]

/-- R7, R8: the model's checks and the manual's table refuse alike. -/
theorem firstFailing_queueJobChecks (p : QueueJobItems) (s : State) :
    firstFailing (queueJobChecks p s) = firstFailing (queueRows p s) := by
  rw [queueRows_eq, queueJobChecks, badItem]
  refine firstFailing_cons _ (firstFailing_cons _ ?_)
  rw [Option.isSome_map, firstFailing_find (fun row : Bool × Nat => row.1) Prod.snd]
  exact firstFailing_append_congr (a := itemRows p) fun hitems =>
    firstFailing_cons _ (firstFailing_resources hitems)

theorem itemRows_pass (hp : passes (queueRows p s)) : passes (itemRows p) := by
  rw [queueRows_eq] at hp
  exact fun c hc => hp c (by simp [hc])

/-! ## The effects of Queue Job (R9 to R11) -/

/-- R9: what the acceptance of a job leaves. -/
theorem acceptJob_handed (h : s.Handed (.queueJob rt p) m) (j : Job) :
    s.acceptJob j = { s with
      jobs := ⟨s.jobs.live ++ [j], s.jobs.results⟩
      planes := usePlanes (· + 1) j.work.planes s.planes
      curves := useCurve (· + 1) j.work.curve s.curves
      link := { s.link with current := some ⟨m, .replyPending
        (.accept (u8 (s.jobs.live.length + 1) ++ u8 s.jobs.results.length))⟩ } } := by
  rw [State.acceptJob, JobStore.counts, List.length_append]
  exact h.accept (by rfl) _

/-- R7 to R9, R11: Queue Job is examined by the manual's table; accepted, its job joins the tail, and where the run waits
in BETWEEN the sequencer goes on. -/
theorem queueJob_handed (h : s.Handed (.queueJob rt p) m) :
    FirstRefusal (.queueJob rt p) m s (queueRows p s) ∧
    (passes (queueRows p s) → exec (.queueJob rt p) s = .next
      (if s.isWaiting then (s.acceptJob (queuedJob p)).between else s.acceptJob (queuedJob p))) := by
  refine h.examined (effect := fun u =>
    if u.isWaiting then (u.acceptJob (queuedJob p)).between else u.acceptJob (queuedJob p)) ?_
  rw [exec_queueJob, carryOut_handed h, queueJobBlock]
  exact congrArg Host.Outcome.next (examine_congr (firstFailing_queueJobChecks p s) fun _ => rfl)

/-- R11: only where the run waits in BETWEEN does an accepted job start its next frame. -/
theorem queueJob_goes (h : s.Handed (.queueJob rt p) m) (hp : passes (queueRows p s)) :
    (¬ (s.run.state = .running ∧ s.seq.phase = .between ∧ s.jobs.live = []) →
      exec (.queueJob rt p) s = .next (s.acceptJob (queuedJob p))) ∧
    (s.run.state = .running ∧ s.seq.phase = .between ∧ s.jobs.live = [] →
      ∃ t, exec (.queueJob rt p) s = .next t ∧ GoesOn (s.acceptJob (queuedJob p)) t) := by
  have hexec := (queueJob_handed h).2 hp
  refine ⟨fun hnot => ?_, fun hwait => ⟨_, hexec, ?_⟩⟩
  · rw [hexec, if_neg (by simpa [State.isWaiting] using hnot)]
  · rw [if_pos (by simpa [State.isWaiting] using hwait)]
    exact between_goesOn _

end QueueJob

section Cancel

variable {s : State} {m : Message} {rt : Byte} {tag : Half}

/-! ## Cancel Job and Query Job (R13, R15) -/

theorem exec_cancelJob (rt : Byte) (tag : Half) (s : State) :
    exec (.cancelJob rt tag) s = carryOut (.cancelJob rt tag) (cancelJobBlock tag) s := rfl

theorem exec_queryJob (rt : Byte) (tag : Half) (s : State) :
    exec (.queryJob rt tag) s = carryOut (.queryJob rt tag) (queryJobBlock tag) s := rfl

/-- The first element with a property, and its place. -/
theorem find_first {α : Type} {p : α → Bool} {before after : List α} {j : α} (hj : p j = true)
    (hbefore : ∀ k ∈ before, p k = false) :
    (before ++ j :: after).find? p = some j ∧ (before ++ j :: after).findIdx p = before.length := by
  induction before with
  | nil => simp [hj, List.findIdx_cons]
  | cons k before ih =>
    have hk := hbefore k (by simp)
    obtain ⟨hfind, hidx⟩ := ih fun x hx => hbefore x (by simp [hx])
    simp [hk, hfind, hidx, List.findIdx_cons]

theorem find_none {jobs : List Job} (h : ∀ j ∈ jobs, j.tag ≠ tag.toNat) :
    jobs.find? (fun j => decide (j.tag = tag.toNat)) = none := by
  simpa using h

/-- R13: a CANCELLED job leaves the queue and joins the results; its use counts are released. -/
theorem endJob_cancelled (s : State) {before after : List Job} {j : Job} (hlive : s.jobs.live = before ++ j :: after)
    (hbefore : ∀ k ∈ before, k.tag ≠ j.tag) :
    s.endJob .cancelled j = { s with
      planes := usePlanes (· - 1) j.work.planes s.planes
      curves := useCurve (· - 1) j.work.curve s.curves
      jobs := ⟨before ++ after, s.jobs.results ++ [{ j with outcome := some .cancelled }]⟩ } := by
  have herase : s.jobs.live.eraseP (fun k => decide (k.tag = j.tag)) = before ++ after := by
    rw [hlive, List.eraseP_append_right _ fun k hk => by simpa using hbefore k hk, List.eraseP_cons_of_pos (by simp)]
  rw [State.endJob, herase, if_neg (by simp)]
  rfl

/-- R13: the head job's tag is the one named only where no job stands before it. -/
theorem headTag_split {before after : List Job} {j : Job} (hlive : s.jobs.live = before ++ j :: after)
    (hj : j.tag = tag.toNat) (hbefore : ∀ k ∈ before, k.tag ≠ tag.toNat) :
    s.headTag = some tag.toNat ↔ before = [] := by
  cases before with
  | nil => simp [State.headTag, State.head, hlive, hj]
  | cons k before => simpa [State.headTag, State.head, hlive] using hbefore k (by simp)

theorem cancelJob_unknown (h : s.Handed (.cancelJob rt tag) m) (hnone : ∀ j ∈ s.jobs.live, j.tag ≠ tag.toNat) :
    Refused (.cancelJob rt tag) m s .noSuchJob 0 := by
  rw [Refused, exec_cancelJob, carryOut_handed h, cancelJobBlock, find_none hnone, h.answer]

theorem cancelJob_busy (h : s.Handed (.cancelJob rt tag) m) {j : Job} {after : List Job}
    (hlive : s.jobs.live = j :: after) (hj : j.tag = tag.toNat)
    (hrun : s.run.state = .running ∨ s.run.state = .pausing) : Refused (.cancelJob rt tag) m s .busy 0 := by
  have hfind := (find_first (p := fun k : Job => decide (k.tag = tag.toNat)) (before := []) (after := after) (j := j)
    (by simpa using hj) (by simp)).1
  rw [List.nil_append, ← hlive] at hfind
  rw [Refused, exec_cancelJob, carryOut_handed h, cancelJobBlock, hfind]
  dsimp only
  rw [if_pos ⟨(headTag_split (before := []) hlive hj (by simp)).2 rfl, hrun⟩, h.answer]

theorem cancelJob_cancels (h : s.Handed (.cancelJob rt tag) m) {before after : List Job} {j : Job}
    (hlive : s.jobs.live = before ++ j :: after) (hj : j.tag = tag.toNat) (hbefore : ∀ k ∈ before, k.tag ≠ tag.toNat)
    (hfree : before ≠ [] ∨ s.run.state = .stopped ∨ s.run.state = .paused) :
    Accepted (.cancelJob rt tag) m s
      { s with planes := usePlanes (· - 1) j.work.planes s.planes
               curves := useCurve (· - 1) j.work.curve s.curves
               jobs := ⟨before ++ after, s.jobs.results ++ [{ j with outcome := some .cancelled }]⟩ }
      (u8 (before.length + after.length) ++ u8 (s.jobs.results.length + 1)) := by
  have hfind := (find_first (p := fun k : Job => decide (k.tag = tag.toNat)) (after := after) (j := j)
    (by simpa using hj) (by simpa using hbefore)).1
  rw [← hlive] at hfind
  rw [Accepted, exec_cancelJob, carryOut_handed h, cancelJobBlock, hfind]
  dsimp only
  rw [if_neg ?notBusy,
    endJob_cancelled s hlive fun k hk => by rw [hj]; exact hbefore k hk, JobStore.counts, List.length_append,
    List.length_append]
  case notBusy =>
    rintro ⟨hhead, hrun⟩
    obtain rfl := (headTag_split hlive hj hbefore).1 hhead
    rcases hfree with hne | hstate | hstate
    · exact hne rfl
    · simp [hstate] at hrun
    · simp [hstate] at hrun
  exact congrArg Host.Outcome.next (h.accept (by rfl) _)

theorem queryJob_reports (h : s.Handed (.queryJob rt tag) m) {items : List Byte}
    (hreport : s.jobs.report tag.toNat = some items) : Accepted (.queryJob rt tag) m s s items := by
  rw [Accepted, exec_queryJob, carryOut_handed h, queryJobBlock, hreport]
  exact congrArg Host.Outcome.next (h.accept rfl _)

end Cancel

section Outputs

variable {s : State} {ch : Channel} {t : Nat} {l : LineDrive}

/-! ## The outputs to the modulator drivers (R58, R60, R62, R100, R158) -/

/-- Which pixel a time within the pixels belongs to, and how far it is into it. -/
theorem div_mod_of_within {x i period : Nat} (hlow : i * period ≤ x) (hhigh : x < (i + 1) * period) :
    x / period = i ∧ x % period = x - i * period := by
  have hdiv : x / period = i := Nat.div_eq_of_lt_le hlow hhigh
  exact ⟨hdiv, by rw [Nat.mod_eq_sub_mul_div, hdiv, Nat.mul_comm]⟩

/-- R60: the lit sub-periods of a pixel, told from the time within it. -/
theorem lit_iff {x start duty period : Nat} (hperiod : 0 < period) :
    (start ≤ x * 16 / period ∧ x * 16 / period < start + duty) ↔
      (start * period ≤ x * 16 ∧ x * 16 < (start + duty) * period) := by
  rw [Nat.le_div_iff_mul_le hperiod, Nat.div_lt_iff_lt_mul hperiod]

theorem LineDrive.output_pulse {width period : Nat} {level : Rgb Nat} (hpulse : l.pulse = some level)
    (ht : t < l.delay * 1000) : l.output width period ch t = ⟨level.get ch, true, false⟩ := by
  simp only [LineDrive.output, if_pos ht, hpulse, ChannelOutput.pulse]

theorem LineDrive.output_after {width period : Nat} (hperiod : 0 < period)
    (ht : l.delay * 1000 + width * period ≤ t) : l.output width period ch t = ⟨0, false, true⟩ := by
  have hpast : ¬ (t - l.delay * 1000) / period < width := by
    rw [Nat.not_lt, Nat.le_div_iff_mul_le hperiod]
    omega
  simp only [LineDrive.output]
  rw [if_neg (by omega), if_neg hpast]
  rfl

theorem LineDrive.output_pixel {width period i : Nat} {d : PixelDrive} (hperiod : 0 < period) (hi : i < width)
    (hlow : l.delay * 1000 + i * period ≤ t) (hhigh : t < l.delay * 1000 + (i + 1) * period)
    (hd : (l.pixels.get ch).pixel i = some d) :
    l.output width period ch t = ⟨d.level,
      decide (d.start * period ≤ (t - (l.delay * 1000 + i * period)) * 16 ∧
        (t - (l.delay * 1000 + i * period)) * 16 < (d.start + d.duty) * period), false⟩ := by
  obtain ⟨hdiv, hmod⟩ := div_mod_of_within (x := t - l.delay * 1000) (i := i) (period := period) (by omega) (by omega)
  simp only [LineDrive.output]
  rw [if_neg (by omega), hdiv, if_pos hi, hd, hmod, ← Nat.sub_add_eq]
  simp only [PixelDrive.output, lit_iff hperiod]

theorem PixelRow.pixel_eq {row : PixelRow} {i : Nat} {d : PixelDrive}
    (h : row = .alike d ∨ ∃ ds, row = .each ds ∧ ds[i]? = some d) : row.pixel i = some d := by
  obtain rfl | ⟨ds, rfl, hd⟩ := h
  · rfl
  · exact hd

end Outputs

/-! ## The obligations -/

/-- Settles O12: the time after the active start, divided by the pixel period, is the pixel; its sixteenths are the
sub-periods. -/
theorem pixelDriveFollowsEntry : Obligations.PixelDriveFollowsEntry := by
  refine ⟨fun s ch t hnone => ?idle, fun s ch t l hline hperiod => ?line, fun p trim e hduty => ⟨fun hdark => ?dark,
    fun hlit => ?lit⟩⟩
  case idle =>
    rw [State.output, hnone]
    rfl
  case line =>
    have hout : s.output ch t = l.output ((s.reel.map Reel.width).getD 0) s.scan.geometry.pixelPeriod ch t := by
      rw [State.output, hline]
    rw [hout]
    exact ⟨fun level hpulse ht => LineDrive.output_pulse hpulse ht,
      fun i d hi hlow hhigh hd => LineDrive.output_pixel hperiod hi hlow hhigh (PixelRow.pixel_eq hd),
      LineDrive.output_after hperiod⟩
  case dark => exact if_pos hdark
  case lit =>
    rw [pixelDrive, if_neg hlit]
    refine ⟨?level, decide_eq_true_iff, rfl, ?start, ?within⟩
    case level =>
      dsimp only [trimmedLevel]
      split <;> omega
    case start => cases p <;> rfl
    case within =>
      cases p <;> simp only [startSubPeriod] <;> omega

/-- Settles O14: the model's checks refuse as the manual's table does. -/
theorem queueJobChecksInOrder : Obligations.QueueJobChecksInOrder := fun _ _ _ _ h => (queueJob_handed h).1

/-- Settles O15: the three selectors are those of the wire values; each distinct one is used once more. -/
theorem queueJobAcceptsExpose : Obligations.QueueJobAcceptsExpose := by
  intro rt p m s r g b h hp hk hr hg hb hrw hgw hbw
  obtain ⟨⟨r', g', b'⟩, hwork, ⟨hr', hrw'⟩, ⟨hg', hgw'⟩, ⟨hb', hbw'⟩⟩ := queuedWork_expose (itemRows_pass hp) hk
  obtain rfl := Selector.wire_inj hr hr' (hrw.trans hrw'.symm)
  obtain rfl := Selector.wire_inj hg hg' (hgw.trans hgw'.symm)
  obtain rfl := Selector.wire_inj hb hb' (hbw.trans hbw'.symm)
  obtain ⟨hstays, hgoes⟩ := queueJob_goes h hp
  have hin : ∀ sel ∈ (queuedWork p).planes, sel.inTable := by
    intro sel hsel
    rw [hwork] at hsel
    obtain rfl | rfl | rfl := Rgb.mem_distinct.1 hsel
    · exact hr
    · exact hg
    · exact hb
  have haccept := acceptJob_handed h (queuedJob p)
  refine ⟨s.acceptJob (queuedJob p), ?_, fun k => ?planes, fun k => ?curves, hstays, hgoes⟩
  · have hjob : queuedJob p = ⟨p.tag.toNat, .expose ⟨r, g, b⟩ p.curveSet.toNat (decide (p.release.toNat ≠ 0)),
        if p.repeatCount.toNat = 0 then 256 else p.repeatCount.toNat, 0, 0, 0, 0, none, none⟩ := by
      rw [← hwork]
      rfl
    rw [haccept, ← hjob]
  case planes =>
    rw [haccept]
    have hmem : k ∈ (queuedWork p).planes.map Selector.wire ↔ k = r.wire ∨ k = g.wire ∨ k = b.wire := by
      rw [hwork]
      simp only [List.mem_map, Work.planes, Rgb.mem_distinct]
      grind
    refine (usePlanes_get (· + 1) (Work.wires_nodup hin) s.planes k).trans ?_
    simp only [hmem]
    split <;> simp
  case curves =>
    rw [haccept]
    refine (useCurve_get (· + 1) (queuedWork p).curve s.curves k).trans ?_
    rw [hwork]
    simp only [Work.curve, Option.some.injEq, eq_comm (a := k)]
    split <;> simp

/-- Settles O16: a FLASH job uses its set once more, a BLANK job nothing. -/
theorem queueJobAcceptsFlashAndBlank : Obligations.QueueJobAcceptsFlashAndBlank := by
  intro rt p m s h hp hk
  have hwork : queuedWork p =
      if p.kind.toNat = 1 then .flash p.curveSet.toNat (p.flash.map BitVec.toNat) else .blank := by
    rcases hk with hk | hk
    · rw [queuedWork_flash hk, if_pos hk]
    · rw [queuedWork_blank hk, if_neg (by omega)]
  have hnoPlanes : (queuedWork p).planes = [] := by
    rw [hwork]
    split <;> rfl
  have hcurve : (queuedWork p).curve = if p.kind.toNat = 1 then some p.curveSet.toNat else none := by
    rw [hwork]
    split <;> rfl
  obtain ⟨hstays, hgoes⟩ := queueJob_goes h hp
  have haccept := acceptJob_handed h (queuedJob p)
  refine ⟨s.acceptJob (queuedJob p), ?_, fun k => ?curves, hstays, hgoes⟩
  · have hjob : queuedJob p = ⟨p.tag.toNat,
        if p.kind.toNat = 1 then .flash p.curveSet.toNat (p.flash.map BitVec.toNat) else .blank,
        if p.repeatCount.toNat = 0 then 256 else p.repeatCount.toNat, 0, 0, 0, 0, none, none⟩ := by
      rw [← hwork]
      rfl
    have hplanes : usePlanes (· + 1) (queuedJob p).work.planes s.planes = s.planes :=
      congrArg (fun sels => usePlanes (· + 1) sels s.planes) hnoPlanes
    rw [haccept, hplanes, ← hjob]
  case curves =>
    rw [haccept]
    refine (useCurve_get (· + 1) (queuedWork p).curve s.curves k).trans ?_
    rw [hcurve]
    by_cases hflash : p.kind.toNat = 1
    · simp only [hflash, if_true, Option.some.injEq, true_and, eq_comm (a := k)]
      split <;> simp
    · simp [hflash]

/-- Settles O17: the job a tag names is the first that carries it. -/
theorem cancelAndQueryJob : Obligations.CancelAndQueryJob := by
  refine ⟨fun rt tag m s h huses => ⟨cancelJob_unknown h, fun before j after hlive hj hbefore => ⟨?busy, fun hfree => ?_⟩⟩,
    fun rt tag m s h => ⟨fun before j after hlive hj hbefore => ?live, fun before j after hnone hresults hj hbefore =>
      ?result, fun hnone => ?unknown⟩, job_laidOut⟩
  case busy =>
    rintro rfl hrun
    exact cancelJob_busy h hlive hj hrun
  · refine ⟨_, _, cancelJob_cancels h hlive hj hbefore hfree, fun k => ?_, fun k => ?_⟩
    · have hin : ∀ sel ∈ j.work.planes, sel.inTable := fun sel hsel =>
        (huses.defined j (by simp [hlive]) sel hsel).1
      rw [usePlanes_get (· - 1) (Work.wires_nodup hin)]
      simp only [List.contains_eq_mem, decide_eq_true_eq]
      split <;> simp
    · rw [useCurve_get]
      split <;> simp
  case live =>
    obtain ⟨hfind, hidx⟩ := find_first (p := fun k : Job => decide (k.tag = tag.toNat)) (after := after)
      (by simpa using hj) (by simpa using hbefore)
    refine queryJob_reports h ?_
    simp only [JobStore.report, hlive, hfind, hidx]
  case result =>
    obtain ⟨hfind, hidx⟩ := find_first (p := fun k : Job => decide (k.tag = tag.toNat)) (after := after)
      (by simpa using hj) (by simpa using hbefore)
    refine queryJob_reports h ?_
    simp only [JobStore.report, find_none hnone, hresults, hfind, hidx]
  case unknown =>
    have hlive := find_none (jobs := s.jobs.live) fun k hk => hnone k (by simp [hk])
    have hresults := find_none (jobs := s.jobs.results) fun k hk => hnone k (by simp [hk])
    rw [Refused, exec_queryJob, carryOut_handed h, queryJobBlock]
    simp only [JobStore.report, hlive, hresults]
    exact congrArg Host.Outcome.next (h.answer _)

end Sys2Proof.Machine
end

section
/-! Start Run, Stop Run, Pause Run and Resume Run, with the readiness checks; and the expiry of the lead-in timer. -/

namespace Sys2Proof.Machine

section Readiness

variable {s : State} {m : Message} {rt mode : Byte} {leadIn : Half}

/-! ## Modes and lead-in times on the wire -/

theorem runModeOf_cases (b : Byte) :
    (1 < b.toNat ∧ runModeOf b = none) ∨
    (b.toNat ≤ 1 ∧ runModeOf b = some (if b.toNat = 0 then .endOnEmpty else .holdOnEmpty)) := by
  unfold runModeOf
  split <;> simp_all
  omega

theorem leadInOf_cases (h : Half) :
    (leadInOk h = false ∧ leadInOf h = none) ∨ (leadInOk h = true ∧ leadInOf h = some (leadInTime h)) := by
  unfold leadInOk leadInOf leadInTime
  by_cases hzero : h.toNat = 0
  · exact .inr ⟨by simp [hzero], by simp [hzero, Config.defaultLeadIn]⟩
  · by_cases hrange : 10 ≤ h.toNat ∧ h.toNat ≤ 10000
    · exact .inr ⟨by simp [hrange], by simp [hzero, hrange]⟩
    · exact .inl ⟨by simp [hzero, hrange], by simp [hzero, hrange]⟩

theorem leadInOf_isNone (h : Half) : (leadInOf h).isNone = !leadInOk h := by
  obtain ⟨hbad, hnone⟩ | ⟨hok, hsome⟩ := leadInOf_cases h
  · simp [hbad, hnone]
  · simp [hok, hsome]

theorem leadInOf_getD {h : Half} (hok : leadInOk h = true) : (leadInOf h).getD 0 = leadInTime h := by
  obtain ⟨hbad, -⟩ | ⟨-, hsome⟩ := leadInOf_cases h
  · rw [hok] at hbad
    cases hbad
  · rw [hsome, Option.getD_some]

/-! ## The readiness checks (R67 to R69) -/

/-- The largest of the active starts is the active start of the largest correction. -/
theorem foldl_max_starts (offset : Nat) (a : Int) (cs : List Int) :
    (cs.map fun c => ((offset : Int) + c).toNat).foldl max ((offset : Int) + a).toNat =
      ((offset : Int) + cs.foldl max a).toNat := by
  induction cs generalizing a with
  | nil => rfl
  | cons c cs ih =>
    have hmax : max ((offset : Int) + a).toNat ((offset : Int) + c).toNat = ((offset : Int) + max a c).toNat := by omega
    rw [List.map_cons, List.foldl_cons, List.foldl_cons, hmax, ih]

theorem lineLength_eq (r : Reel) (c : Scan) :
    lineLength r c = exposedLine r.width r.offset c.geometry.pixelPeriod c.corrections := by
  unfold lineLength exposedLine largestCorrection
  cases c.corrections with
  | nil => simp
  | cons a cs => simp [foldl_max_starts]

/-- R68: the model's checks and the manual's rows refuse alike: the laser and the clock row name the first channel. -/
theorem firstFailing_startChecks (runMode : RunMode) (s : State) :
    firstFailing (s.startChecks runMode) = firstFailing (readyRows runMode s) := by
  simp only [State.startChecks, State.readinessChecks, readyRows, lineLength_eq]
  refine firstFailing_cons _ (firstFailing_cons _ (firstFailing_cons _ (firstFailing_cons _ ?_)))
  have hlock (b : Bool) : (!b) = decide (b = false) := by cases b <;> rfl
  rw [hlock]
  refine firstFailing_cons _ ?_
  rw [firstFailing_channels (fun l => decide (l ≠ .ready)) s.lasers .notReady (4 + 256 * ·)]
  refine firstFailing_cons _ (firstFailing_cons _ (firstFailing_cons _ ?_))
  rw [firstFailing_channels MonitorChannel.lost s.monitor.channels .notReady (5 + 256 * ·)]

/-! ## Start Run (R67, R70) -/

theorem exec_startRun (rt mode : Byte) (leadIn : Half) (s : State) :
    exec (.startRun rt mode leadIn) s = carryOut (.startRun rt mode leadIn) (startRunBlock mode leadIn) s := rfl

/-- R67: the run mode a byte stands for. -/
def wireMode (mode : Byte) : RunMode := if mode.toNat = 0 then .endOnEmpty else .holdOnEmpty

/-- R67, R68: the rows of Start Run. -/
def startRunRows (mode : Byte) (leadIn : Half) (s : State) : List Check :=
  [ (decide (s.run.state ≠ .stopped), .busy, 0), (decide (1 < mode.toNat), .badValue, 1),
    (!leadInOk leadIn, .badValue, 2) ] ++ readyRows (wireMode mode) s

theorem firstFailing_startRunChecks (mode : Byte) (leadIn : Half) (s : State) :
    firstFailing (startRunChecks mode leadIn s) = firstFailing (startRunRows mode leadIn s) := by
  rw [startRunChecks, startRunRows, leadInOf_isNone]
  refine firstFailing_cons _ ?_
  obtain ⟨hlarge, hnone⟩ | ⟨hsmall, hsome⟩ := runModeOf_cases mode
  · simp [hnone, hlarge, firstFailing]
  · have hrange : (decide (1 < mode.toNat)) = false := by simpa using hsmall
    rw [hsome, hrange]
    exact firstFailing_cons _ (firstFailing_cons _ (firstFailing_startChecks _ _))

/-- R70: what an accepted Start Run leaves before the sequencer acts. -/
def State.started (m : Message) (runMode : RunMode) (leadIn : Nat) (s : State) : State :=
  { s with
    run := { s.run with state := .running, mode := runMode, pendingStop := .none, leadIn := leadIn }
    link := { s.link with current := some ⟨m, .replyPending (.accept [])⟩ } }

/-- R67, R70: Start Run is examined by the manual's rows; accepted, the run begins and the sequencer acts. -/
theorem startRun_handed (h : s.Handed (.startRun rt mode leadIn) m) :
    FirstRefusal (.startRun rt mode leadIn) m s (startRunRows mode leadIn s) ∧
    (passes (startRunRows mode leadIn s) → exec (.startRun rt mode leadIn) s =
      .next (s.started m (wireMode mode) (leadInTime leadIn)).between) := by
  refine h.examined (effect := fun _ => (s.started m (wireMode mode) (leadInTime leadIn)).between) ?_
  rw [exec_startRun, carryOut_handed h, startRunBlock]
  refine congrArg Host.Outcome.next (examine_congr (firstFailing_startRunChecks mode leadIn s) fun hp => ?_)
  have hmode : (decide (1 < mode.toNat)) = false :=
    hp (decide (1 < mode.toNat), .badValue, 1) (by simp [startRunRows])
  have hlead := hp (!leadInOk leadIn, .badValue, 2) (by simp [startRunRows])
  have hsome : (runModeOf mode).getD .endOnEmpty = wireMode mode := by
    obtain ⟨hlarge, -⟩ | ⟨-, hsome⟩ := runModeOf_cases mode
    · exact absurd hlarge (of_decide_eq_false hmode)
    · rw [hsome]
      rfl
  rw [hsome, leadInOf_getD (by simpa using hlead), State.beginRun]
  exact congrArg State.between (h.accept (by rfl) _)

end Readiness

section Stop

variable {s : State} {m : Message} {rt mode : Byte}

/-! ## Stop Run (R75 to R78) -/

theorem exec_stopRun (rt mode : Byte) (s : State) :
    exec (.stopRun rt mode) s = carryOut (.stopRun rt mode) (stopRunBlock mode) s := rfl

theorem StopMode.code_inj {a b : StopMode} (h : a.code = b.code) : a = b := by
  cases a <;> cases b <;> first | rfl | exact nomatch h

theorem StopMode.stronger_code (a b : StopMode) : (a.stronger b).code = max a.code b.code := by
  unfold StopMode.stronger
  split <;> omega

/-- R75: the values 1 to 3 are stop modes, coded so. -/
theorem stopModeOf_cases (b : Byte) :
    (¬ (1 ≤ b.toNat ∧ b.toNat ≤ 3) ∧ stopModeOf b = none) ∨
    ((1 ≤ b.toNat ∧ b.toNat ≤ 3) ∧ ∃ stop, stopModeOf b = some stop ∧ stop.code = b.toNat) := by
  unfold stopModeOf
  split <;> simp_all [StopMode.code]
  omega

/-- The state with a pending stop. -/
def State.stopping (stop : StopMode) (s : State) : State := { s with run := { s.run with pendingStop := stop } }

/-- A halt takes nothing of the pending stop. -/
theorem Halted.of_stopping {reason : HaltReason} {stop : StopMode} {t : State} (h : Halted reason (s.stopping stop) t) :
    Halted reason s t :=
  ⟨h.record, h.run, h.sequencer, h.blanked, h.notice, h.raisedAgain⟩

theorem HaltFrame.of_stopping {stop : StopMode} {t : State} (h : HaltFrame (s.stopping stop) t) : HaltFrame s t :=
  ⟨h.rest, h.monitor, h.arbiter, h.notices, h.sending⟩

theorem Spoiled.of_stopping {cause : SpoilCause} {reason : HaltReason} {line : Nat} {ch : Option Channel}
    {stop : StopMode} {t : State} (h : Spoiled cause reason line ch (s.stopping stop) t) :
    Spoiled cause reason line ch s t :=
  ⟨h.toHalted.of_stopping, h.results, h.counted, h.logged, h.unsent⟩

/-- R75: the stop that is pending after an accepted Stop Run is acted on; the reply tells what stands then. -/
theorem stopRun_accepted (h : s.Handed (.stopRun rt mode) m) {stop : StopMode} (hrun : s.run.state ≠ .stopped)
    (hlow : 1 ≤ mode.toNat) (hhigh : mode.toNat ≤ 3) (hstop : stop.code = max s.run.pendingStop.code mode.toNat) :
    let t := (s.stopping stop).actOnStop
    exec (.stopRun rt mode) s = .next (t.answered m (.accept (u8 t.run.state.code ++ u8 t.run.pendingStop.code))) := by
  intro t
  obtain ⟨hbad, -⟩ | ⟨-, asked, hasked, hcode⟩ := stopModeOf_cases mode
  · exact absurd ⟨hlow, hhigh⟩ hbad
  · have hstronger : s.run.pendingStop.stronger asked = stop :=
      StopMode.code_inj (by rw [StopMode.stronger_code, hcode, hstop])
    have hexec : exec (.stopRun rt mode) s = .next (s.stopRun asked) := by
      rw [exec_stopRun, carryOut_handed h, stopRunBlock, hasked, Option.getD_some]
      simp [State.examine, firstFailing, hrun]
    rw [hexec, State.stopRun, hstronger]
    exact congrArg Host.Outcome.next (h.accept (Keeps.actOnStop_current (s.stopping stop)) _)

/-- R78: a stop of a PAUSED run. -/
theorem actOnStop_paused (hrun : s.run.state = .paused) : s.actOnStop = s.halt .stopRequest := by
  rw [State.actOnStop, if_pos hrun]

/-- R77: NOW in EXPOSING. -/
theorem actOnStop_now (hrun : s.run.state ≠ .paused) (hphase : s.seq.phase = .exposing)
    (hstop : s.run.pendingStop = .now) : s.actOnStop = s.spoil .stopNow s.seq.lineCounter none := by
  rw [State.actOnStop, if_neg hrun, hstop]
  exact if_pos hphase

/-- R76: a weaker stop waits in EXPOSING. -/
theorem actOnStop_exposing (hrun : s.run.state ≠ .paused) (hphase : s.seq.phase = .exposing)
    (hstop : s.run.pendingStop ≠ .now) : s.actOnStop = s := by
  rw [State.actOnStop, if_neg hrun]
  cases hpending : s.run.pendingStop with
  | none => rfl
  | atJob => exact if_neg (by simp [hphase])
  | atFrame => exact if_pos hphase
  | now => exact absurd hpending hstop

/-- R76 to R78: outside EXPOSING a stop is due at once, AT_JOB only with no head job in BETWEEN. -/
theorem actOnStop_halts (hrun : s.run.state ≠ .paused) (hphase : s.seq.phase ≠ .exposing)
    (hsome : s.run.pendingStop ≠ .none)
    (hdue : s.run.pendingStop ≠ .atJob ∨ (s.seq.phase = .between ∧ s.jobs.live = [])) :
    s.actOnStop = s.halt .stopRequest := by
  rw [State.actOnStop, if_neg hrun]
  cases hpending : s.run.pendingStop with
  | none => exact absurd hpending hsome
  | atJob => exact if_pos (hdue.resolve_left (by simp [hpending]))
  | atFrame => exact if_neg hphase
  | now => exact if_neg hphase

theorem actOnStop_waits (hrun : s.run.state ≠ .paused) (hstop : s.run.pendingStop = .atJob)
    (hhead : ¬ (s.seq.phase = .between ∧ s.jobs.live = [])) : s.actOnStop = s := by
  rw [State.actOnStop, if_neg hrun, hstop]
  exact if_neg hhead

end Stop

section Pause

variable {s : State} {m : Message} {rt : Byte} {leadIn : Half}

/-! ## Pause Run and Resume Run (R80, R83) -/

theorem exec_pauseRun (rt : Byte) (s : State) : exec (.pauseRun rt) s = carryOut (.pauseRun rt) pauseRunBlock s := rfl

theorem exec_resumeRun (rt : Byte) (leadIn : Half) (s : State) :
    exec (.resumeRun rt leadIn) s = carryOut (.resumeRun rt leadIn) (resumeRunBlock leadIn) s := rfl

theorem pauseRun_refused (h : s.Handed (.pauseRun rt) m) (hrun : s.run.state ≠ .running) :
    Refused (.pauseRun rt) m s .busy 0 := by
  rw [Refused, exec_pauseRun, carryOut_handed h, pauseRunBlock, examine_cons, if_pos (by simpa using hrun), h.answer]

theorem pauseRun_handed (h : s.Handed (.pauseRun rt) m) (hrun : s.run.state = .running) :
    exec (.pauseRun rt) s = .next s.pauseRun := by
  rw [exec_pauseRun, carryOut_handed h, pauseRunBlock, examine_cons, if_neg (by simp [hrun]), examine_nil]

/-- R83: what an accepted Resume Run leaves before the sequencer acts. -/
def State.resumed (m : Message) (leadIn : Half) (s : State) : State :=
  { s with
    run := { s.run with state := .running, leadIn := leadInTime leadIn }
    link := { s.link with current := some ⟨m, .replyPending (.accept [])⟩ } }

theorem resume_handed (h : s.Handed (.resumeRun rt leadIn) m) (hok : leadInOk leadIn = true) :
    s.resume ((leadInOf leadIn).getD 0) = s.resumed m leadIn := by
  rw [leadInOf_getD hok, State.resume]
  exact h.accept (by rfl) _

theorem resumeRun_busy (h : s.Handed (.resumeRun rt leadIn) m)
    (hrun : s.run.state = .stopped ∨ s.run.state = .running) : Refused (.resumeRun rt leadIn) m s .busy 0 := by
  rw [Refused, exec_resumeRun, carryOut_handed h, resumeRunBlock]
  rcases hrun with hrun | hrun <;> rw [hrun] <;> exact congrArg Host.Outcome.next (h.answer _)

theorem resumeRun_pausing (h : s.Handed (.resumeRun rt leadIn) m) (hrun : s.run.state = .pausing) :
    (leadInOk leadIn = false → Refused (.resumeRun rt leadIn) m s .badValue 2) ∧
    (leadInOk leadIn = true → exec (.resumeRun rt leadIn) s = .next (s.resumed m leadIn)) := by
  have hexec : exec (.resumeRun rt leadIn) s = .next
      (s.examine [(!leadInOk leadIn, .badValue, 2)] (State.resume ((leadInOf leadIn).getD 0))) := by
    rw [exec_resumeRun, carryOut_handed h, resumeRunBlock, hrun, leadInOf_isNone]
  refine ⟨fun hbad => ?_, fun hok => ?_⟩
  · rw [Refused, hexec, examine_cons, if_pos (by simp [hbad]), h.answer]
  · rw [hexec, examine_cons, if_neg (by simp [hok]), examine_nil, resume_handed h hok]

theorem resumeRun_paused (h : s.Handed (.resumeRun rt leadIn) m) (hrun : s.run.state = .paused) :
    let rows : List Check := (!leadInOk leadIn, .badValue, 2) :: readyRows s.run.mode s
    FirstRefusal (.resumeRun rt leadIn) m s rows ∧
    (passes rows → exec (.resumeRun rt leadIn) s = .next (s.resumed m leadIn).between) := by
  refine h.examined (effect := fun _ => (s.resumed m leadIn).between) ?_
  rw [exec_resumeRun, carryOut_handed h, resumeRunBlock, hrun, leadInOf_isNone]
  refine congrArg Host.Outcome.next (examine_congr (firstFailing_cons _ (firstFailing_startChecks _ _)) fun hp => ?_)
  have hlead := hp (!leadInOk leadIn, .badValue, 2) (by simp)
  rw [resume_handed h (by simpa using hlead)]

end Pause

section LeadIn

variable {s : State}

/-! ## The lead-in timer (R95, R96) -/

theorem exec_leadInTimerExpiry (s : State) : exec .leadInTimerExpiry s = event leadInExpiry s := rfl

theorem isReady_iff (t : Transport) : t.isReady = true ↔ t.state = .registered ∧ t.gate = .fresh := by
  simp [Transport.isReady]

/-- R94, R95: the lines condition fails only of an EXPOSE frame with too few line sets. -/
theorem linesReady_iff (s : State) :
    s.linesReady = false ↔ ∃ j rest planes curve release, s.jobs.live = j :: rest ∧
      j.work = .expose planes curve release ∧ s.seq.queue.length < min 8 ((s.reel.map Reel.lines).getD 0) := by
  unfold State.linesReady State.head
  cases hlive : s.jobs.live with
  | nil => simp
  | cons j rest =>
    cases hwork : j.work with
    | expose planes curve release =>
      simp only [List.head?_cons, Option.map_some, hwork, State.rasterLines]
      refine ⟨fun hshort => ⟨j, rest, planes, curve, release, rfl, hwork,
        Nat.not_le.1 (of_decide_eq_false hshort)⟩, ?_⟩
      rintro ⟨-, -, -, -, -, -, -, hshort⟩
      exact decide_eq_false (Nat.not_le.2 hshort)
    | flash | blank => simp [hwork]

theorem leadInExpiry_idle (h : s.seq.phase ≠ .preparing ∨ s.seq.leadTimer = none) : leadInExpiry s = s := by
  refine if_neg ?_
  rintro ⟨hphase, htimer⟩
  rcases h with h | h
  · exact h hphase
  · simp [h] at htimer

theorem leadInExpiry_preparing (hphase : s.seq.phase = .preparing) (htimer : s.seq.leadTimer ≠ none) :
    leadInExpiry s =
      if !s.transport.isReady then s.halt .transportFault
      else if !s.linesReady then s.halt .dataLate
      else { s with seq := { s.seq with leadTimer := none } } :=
  if_pos ⟨hphase, Option.isSome_iff_ne_none.2 htimer⟩

end LeadIn

/-! ## The obligations -/

/-- Settles O18: by the manual's rows, and by what the sequencer does in BETWEEN. -/
theorem startRunBeginsRun : Obligations.StartRunBeginsRun := by
  refine ⟨fun rt mode leadIn m s h => (startRun_handed h).1, fun rt mode leadIn m s h hrun hmode hlead hready => ?_⟩
  have hp : passes (startRunRows mode leadIn s) := by
    intro c hc
    rcases List.mem_append.1 hc with hc | hc
    · simp only [List.mem_cons, List.not_mem_nil, or_false] at hc
      obtain rfl | rfl | rfl := hc
      · simp [hrun]
      · simpa using hmode
      · simp [hlead]
    · exact hready c hc
  exact ⟨_, (startRun_handed h).2 hp, between_goesOn _⟩

/-- Settles O19: what acts on the pending stop is a halt, a spoil or nothing. -/
theorem stopRunActsOnPhase : Obligations.StopRunActsOnPhase := by
  intro rt mode m s h
  refine ⟨?rows, fun stop hrun hlow hhigh hstop =>
    ⟨(s.stopping stop).actOnStop, stopRun_accepted h hrun hlow hhigh hstop, ?_⟩⟩
  case rows =>
    refine (h.examined (effect := State.stopRun ((stopModeOf mode).getD .none)) ?_).1
    rw [exec_stopRun, carryOut_handed h, stopRunBlock]
    refine congrArg Host.Outcome.next (examine_congr (firstFailing_cons _ ?_) fun _ => rfl)
    obtain ⟨hbad, hnone⟩ | ⟨hok, stop, hsome, -⟩ := stopModeOf_cases mode
    · simp only [hnone, hbad, Option.isNone_none, not_false_eq_true, decide_true]
    · simp only [hsome, hok, Option.isNone_some, not_true_eq_false, and_self, decide_false]
  have hhalt (heq : (s.stopping stop).actOnStop = (s.stopping stop).halt .stopRequest) :
      Halted .stopRequest s (s.stopping stop).actOnStop ∧ HaltFrame s (s.stopping stop).actOnStop ∧
        (s.stopping stop).actOnStop.jobs = s.jobs ∧ (s.stopping stop).actOnStop.log = s.log := by
    rw [heq]
    obtain ⟨hframe, hjobs, hlog⟩ := halt_frame .stopRequest (s.stopping stop)
    exact ⟨(halt_halted _ _).of_stopping, hframe.of_stopping, hjobs, hlog⟩
  have hsome : stop ≠ .none := by
    rintro rfl
    simp only [StopMode.code] at hstop
    omega
  refine ⟨fun hpaused => hhalt (actOnStop_paused hpaused), fun hactive hphase hnow => ?now,
    fun hactive hphase hnow => actOnStop_exposing hactive hphase hnow, fun hactive hphase =>
    ⟨fun hdue => hhalt (actOnStop_halts hactive hphase hsome hdue), fun hjob hhead => actOnStop_waits hactive hjob hhead⟩⟩
  case now =>
    rw [actOnStop_now (s := s.stopping stop) hactive hphase hnow]
    exact ⟨(spoil_spoiled .stopNow _ none _).of_stopping, (spoil_frame .stopNow _ none _).of_stopping⟩

/-- Settles O20: a pause by the phase, a resumption by the run state. -/
theorem pauseAndResumeRun : Obligations.PauseAndResumeRun := by
  refine ⟨fun rt m s h => ⟨pauseRun_refused h, fun hrun hphase => ?exposing, fun hrun hphase => ?rests⟩,
    fun rt leadIn m s h => ⟨resumeRun_busy h, resumeRun_pausing h, fun hrun => ?resumes⟩⟩
  case exposing =>
    rw [Accepted, pauseRun_handed h hrun, State.pauseRun, if_pos hphase]
    exact congrArg Host.Outcome.next (h.accept (by rfl) _)
  case rests =>
    obtain ⟨hframe, hjobs, hlog, hpaused, hseq, hdrive, hlink⟩ :=
      rest_frame { s with run := { s.run with state := .pausing } }
    refine ⟨State.rest { s with run := { s.run with state := .pausing } }, ?_,
      ⟨hframe.rest, hframe.monitor, hframe.arbiter, hframe.notices, hframe.sending⟩, hjobs, hlog, hpaused, hseq, hdrive,
      hlink⟩
    rw [Accepted, pauseRun_handed h hrun, State.pauseRun, if_neg hphase]
    exact congrArg Host.Outcome.next (h.accept (by rfl) _)
  case resumes =>
    obtain ⟨hrefuses, hgoes⟩ := resumeRun_paused h hrun
    refine ⟨hrefuses, fun hlead hready => ⟨_, hgoes ?_, between_goesOn _⟩⟩
    intro c hc
    rcases List.mem_cons.1 hc with rfl | hc
    · simp [hlead]
    · exact hready c hc

/-- Settles O21: the transport condition is examined before the lines condition. -/
theorem leadInExpiryHaltsLateFrame : Obligations.LeadInExpiryHaltsLateFrame := by
  intro s hreset late fresh
  have hexec : exec .leadInTimerExpiry s = .next (leadInExpiry s) := by
    rw [exec_leadInTimerExpiry, event_outOfReset hreset]
  have hfresh : s.transport.isReady = true ↔ fresh := isReady_iff _
  have hlate : s.linesReady = false ↔ late := linesReady_iff s
  have hhalt (reason : HaltReason) (heq : leadInExpiry s = s.halt reason) :
      ∃ t, exec .leadInTimerExpiry s = .next t ∧ Halted reason s t ∧ HaltFrame s t ∧ t.jobs = s.jobs ∧ t.log = s.log :=
    ⟨s.halt reason, by rw [hexec, heq], halt_halted _ _, halt_frame _ _⟩
  refine ⟨fun hidle => by rw [hexec, leadInExpiry_idle hidle], fun hphase htimer =>
    ⟨fun hnot => hhalt .transportFault ?_, fun hyes hlines => hhalt .dataLate ?_, fun hyes hlines => ?_⟩⟩
  · rw [leadInExpiry_preparing hphase htimer, if_pos (by simpa using mt hfresh.1 hnot)]
  · rw [leadInExpiry_preparing hphase htimer, if_neg (by simpa using hfresh.2 hyes),
      if_pos (by simpa using hlate.2 hlines)]
  · rw [hexec, leadInExpiry_preparing hphase htimer, if_neg (by simpa using hfresh.2 hyes),
      if_neg (by simpa using mt hlate.1 hlines)]

end Sys2Proof.Machine
end

section
/-! The film transport: Open Reel and Close Reel, the Advance Frames series, pull-downs and registration, the film
sensors; and the passing of a BLANK frame on fresh film. -/

namespace Sys2Proof.Machine

/-! ## What a number holds without its use count, and without the reel table -/

/-- A plane apart from its use count. -/
def Plane.unused (p : Plane) : Plane := { p with use := 0 }

/-- A curve set apart from its use count. -/
def CurveSet.unused (c : CurveSet) : CurveSet := { c with use := 0 }

/-- R10: a change of use counts changes nothing else of a plane. -/
theorem usePlanes_unused (f : Nat → Nat) (sels : List Selector) (a : Table Plane) (k : Nat) :
    (Table.get (usePlanes f sels a) k).map Plane.unused = (Table.get a k).map Plane.unused := by
  induction sels generalizing a with
  | nil => rfl
  | cons sel sels ih =>
    refine (ih (Table.modify a sel.wire fun p => { p with use := f p.use })).trans ?_
    rw [Table.get_modify]
    split
    · rw [Option.map_map]
      rfl
    · rfl

theorem useCurve_unused (f : Nat → Nat) (set : Option Nat) (a : Table CurveSet) (n : Nat) :
    (Table.get (useCurve f set a) n).map CurveSet.unused = (Table.get a n).map CurveSet.unused := by
  rw [useCurve_get]
  split
  · rw [Option.map_map]
    rfl
  · rfl

/-- R44: without the reel table the numbers of the global table hold what they held. -/
theorem get_dropReelPlanes (a : Table Plane) (k : Nat) :
    Table.get (dropReelPlanes a) k = if k < 0x8000 then Table.get a k else none := by
  induction a with
  | nil => simp [dropReelPlanes]
  | cons e a ih =>
    obtain ⟨n, p⟩ := e
    have hcons : dropReelPlanes ((n, p) :: a) =
        if n < 0x8000 then (n, p) :: dropReelPlanes a else dropReelPlanes a := by
      simp only [dropReelPlanes, List.filter_cons, decide_eq_true_eq]
    rw [hcons]
    by_cases hn : n < 0x8000
    · rw [if_pos hn, Table.get, Table.get, ih]
      by_cases hnk : n = k
      · rw [← hnk, if_pos rfl, if_pos hn, if_pos rfl]
      · rw [if_neg hnk, if_neg hnk]
    · rw [if_neg hn, ih, Table.get]
      by_cases hnk : n = k
      · rw [← hnk, if_neg hn, if_neg hn]
      · rw [if_neg hnk]

section Reel

variable {s : State} {m : Message} {rt : Byte}

/-! ## Open Reel and Close Reel (R117, R118) -/

theorem exec_openReel (rt : Byte) (p : OpenReelItems) (s : State) :
    exec (.openReel rt p) s = carryOut (.openReel rt p) (openReelBlock p) s := rfl

theorem exec_closeReel (rt : Byte) (s : State) : exec (.closeReel rt) s = carryOut (.closeReel rt) closeReelBlock s := rfl

/-- R116: the checks of Open Reel as the manual gives them. -/
theorem openReelChecks_eq (p : OpenReelItems) (s : State) :
    openReelChecks p s =
      [ (decide (s.run.state ≠ .stopped), .busy, 0),
        (decide (s.transport.state = .advancing ∨ s.transport.state = .settling), .busy, 1),
        (s.reel.isSome, .reelOpen, 0),
        (decide (p.capacity.toNat = 0), .badValue, 1),
        (decide (¬ p.start.toNat < p.capacity.toNat), .badValue, 2),
        (decide (¬ (2 ≤ p.perforations.toNat ∧ p.perforations.toNat ≤ 8)), .badValue, 3),
        (decide (¬ (1 ≤ p.lines.toNat ∧ p.lines.toNat ≤ 4096)), .badValue, 4),
        (decide (¬ (256 ≤ p.width.toNat ∧ p.width.toNat ≤ 4096 ∧ p.width.toNat % 256 = 0)), .badValue, 5),
        (decide (20000 < p.offset.toNat), .badValue, 6) ] := by
  have hwidth : decide (p.width.toNat < 256 ∨ 4096 < p.width.toNat ∨ p.width.toNat % 256 ≠ 0) =
      decide (¬ (256 ≤ p.width.toNat ∧ p.width.toNat ≤ 4096 ∧ p.width.toNat % 256 = 0)) :=
    decide_eq_decide.2 (by omega)
  simp only [openReelChecks, outOfRange_eq, hwidth, Nat.not_lt]

/-- R19: the jobs that end FLUSHED, in queue order. -/
def flushedJobs (live : List Job) : List Job := live.map fun j => { j with outcome := some .flushed }

/-- R19: flushing empties the queue into the results; planes and sets change in their use counts only. -/
theorem flush_flushed (s : State) :
    s.flush.jobs = ⟨[], s.jobs.results ++ flushedJobs s.jobs.live⟩ ∧
    (∀ k, (Table.get s.flush.planes k).map Plane.unused = (Table.get s.planes k).map Plane.unused) ∧
    ∀ n, (Table.get s.flush.curves n).map CurveSet.unused = (Table.get s.curves n).map CurveSet.unused := by
  have flushed : ∀ (l : List Job) (u : State), u.jobs.live = l →
      (l.foldl (fun (t : State) (j : Job) => t.endJob .flushed j) u).jobs = ⟨[], u.jobs.results ++ flushedJobs l⟩ ∧
      (∀ k, (Table.get (l.foldl (fun (t : State) (j : Job) => t.endJob .flushed j) u).planes k).map Plane.unused =
        (Table.get u.planes k).map Plane.unused) ∧
      ∀ n, (Table.get (l.foldl (fun (t : State) (j : Job) => t.endJob .flushed j) u).curves n).map CurveSet.unused =
        (Table.get u.curves n).map CurveSet.unused := by
    intro l
    induction l with
    | nil =>
      intro u hlive
      refine ⟨?_, fun _ => rfl, fun _ => rfl⟩
      rw [List.foldl_nil, flushedJobs, List.map_nil, List.append_nil, ← hlive]
    | cons j l ih =>
      intro u hlive
      have hend : (u.endJob .flushed j).jobs =
          ⟨l, u.jobs.results ++ [{ j with outcome := some .flushed }]⟩ := by
        rw [endJob_jobs, hlive, List.eraseP_cons_of_pos (by simp)]
      have hplanes : (u.endJob .flushed j).planes = usePlanes (· - 1) j.work.planes u.planes := rfl
      have hcurves : (u.endJob .flushed j).curves = useCurve (· - 1) j.work.curve u.curves := rfl
      obtain ⟨hjobs, hp, hc⟩ := ih (u.endJob .flushed j) (by rw [hend])
      rw [List.foldl_cons]
      refine ⟨?_, fun k => (hp k).trans ?_, fun n => (hc n).trans ?_⟩
      · rw [hjobs, hend, flushedJobs, flushedJobs, List.map_cons, List.append_assoc, List.singleton_append]
      · rw [hplanes, usePlanes_unused]
      · rw [hcurves, useCurve_unused]
  exact flushed s.jobs.live s rfl

/-- R10, R19: after the flush no LIVE job names a descriptor or set, so that every use count is 0. -/
theorem flush_unused (huses : UsesCounted s) :
    (∀ k, Table.get s.flush.planes k = (Table.get s.planes k).map Plane.unused) ∧
    ∀ n, Table.get s.flush.curves n = (Table.get s.curves n).map CurveSet.unused := by
  obtain ⟨hflushed, hlive⟩ := flush_keeps (P := UsesCounted) (fun _ o _ h hu => hu.endJob h o) huses
  have hworks : s.flush.works = [] := by rw [State.works, hlive, List.map_nil]
  have hcounted := hworks ▸ hflushed.counted
  obtain ⟨-, hplanes, hcurves⟩ := flush_flushed s
  refine ⟨fun k => ?_, fun n => ?_⟩
  · rw [← hplanes k]
    cases hget : Table.get s.flush.planes k with
    | none => rfl
    | some p =>
      have huse : p.use = 0 := by simpa using hcounted.planeUse k p hget
      rw [Option.map_some, Plane.unused, ← huse]
  · rw [← hcurves n]
    cases hget : Table.get s.flush.curves n with
    | none => rfl
    | some c =>
      have huse : c.use = 0 := by simpa using hcounted.curveUse n c hget
      rw [Option.map_some, CurveSet.unused, ← huse]

/-- R118: what Close Reel leaves. -/
theorem closeReel_handed (h : s.Handed (.closeReel rt) m) :
    FirstRefusal (.closeReel rt) m s (closeReelChecks s) ∧
    (passes (closeReelChecks s) → Accepted (.closeReel rt) m s
      { s with
        reel := none
        jobs := s.flush.jobs
        planes := dropReelPlanes s.flush.planes
        curves := s.flush.curves } (u8 s.jobs.live.length)) := by
  refine h.examined_accept rfl ?_
  rw [exec_closeReel, carryOut_handed h, closeReelBlock]
  refine congrArg Host.Outcome.next (examine_congr rfl fun _ => ?_)
  rw [State.closeReel, State.flush_eq s]

end Reel

section Series

variable {s : State} {m : Message} {rt count : Byte}

/-! ## Pull-down requests and series (R123, R129 to R131) -/

theorem exec_advanceFrames (rt count : Byte) (s : State) :
    exec (.advanceFrames rt count) s = carryOut (.advanceFrames rt count) (advanceFramesBlock count) s := rfl

theorem exec_settleTimerExpiry (s : State) : exec .settleTimerExpiry s = event settleTimerExpiry s := rfl

theorem pullDownAnswer_endSensor (hreg : s.transport.state = .registered) (hend : s.pins.levels.endSensor = true) :
    s.pullDownAnswer = .endOfReel := by
  rw [State.pullDownAnswer, if_neg (by simp [hreg])]
  split <;> rfl

theorem pullDownAnswer_of_room (hreg : s.transport.state = .registered) (hend : s.pins.levels.endSensor = false)
    (hroom : ∀ r, s.reel = some r → s.transport.position ≠ r.capacity - 1) : s.pullDownAnswer = .taken := by
  rw [State.pullDownAnswer, if_neg (by simp [hreg]), if_neg, if_neg (by simp [hend])]
  cases hreel : s.reel with
  | none => simp
  | some r => simpa using hroom r hreel

theorem nextPullDown_ends (x : Series) (hreg : s.transport.state = .registered)
    (hend : s.pins.levels.endSensor = true) :
    s.nextPullDown x =
      ({ s with transport := { s.transport with series := none } } : State).answer (.refuse .endOfReel x.done) := by
  rw [State.nextPullDown, pullDownAnswer_endSensor hreg hend]

theorem nextPullDown_taken (x : Series) (hreg : s.transport.state = .registered)
    (hend : s.pins.levels.endSensor = false) (hroom : ∀ r, s.reel = some r → s.transport.position ≠ r.capacity - 1) :
    s.nextPullDown x = { s with transport := { s.transport with
      state := .advancing, perfs := 0, pullDownTimer := some s.transport.timeout, series := some x } } := by
  rw [State.nextPullDown, pullDownAnswer_of_room hreg hend hroom]
  rfl

/-- R129: the checks of Advance Frames pass only of registered film with room for its first pull-down. -/
theorem advanceFramesChecks_pass (hp : passes (advanceFramesChecks count s)) :
    s.transport.state = .registered ∧ ∀ r, s.reel = some r → s.transport.position ≠ r.capacity - 1 := by
  have hbusy := hp (decide (s.run.state ≠ .stopped ∨ s.transport.state ≠ .registered), .busy, 0)
    (by simp [advanceFramesChecks])
  have hlast := hp (decide ((s.reel.map fun r => r.capacity - 1).getD 0 < s.transport.position + countOf count),
    .endOfReel, (s.reel.map fun r => r.capacity - 1).getD 0 - s.transport.position) (by simp [advanceFramesChecks])
  have hcount : 0 < countOf count := by
    unfold countOf
    split <;> omega
  refine ⟨(by simpa using hbusy : _ ∧ s.transport.state = .registered).2, fun r hr => ?_⟩
  have hroom := of_decide_eq_false hlast
  simp only [hr, Option.map_some, Option.getD_some] at hroom
  omega

/-- R129: Advance Frames is examined, and its first pull-down requested while the reply waits. -/
theorem advanceFrames_handed (h : s.Handed (.advanceFrames rt count) m) :
    FirstRefusal (.advanceFrames rt count) m s (advanceFramesChecks count s) ∧
    (passes (advanceFramesChecks count s) → exec (.advanceFrames rt count) s =
      .next (s.await.nextPullDown ⟨countOf count, 0⟩)) :=
  h.examined (effect := fun u => u.await.nextPullDown ⟨countOf count, 0⟩)
    (by rw [exec_advanceFrames, carryOut_handed h]; rfl)

/-- R183: a request that is with its block waits. -/
theorem await_handed {i : Instr} (h : s.Handed i m) :
    s.await = { s with link := { s.link with current := some ⟨m, .waiting⟩ } } := by
  obtain ⟨-, hcurrent, -⟩ := h
  rw [State.await, hcurrent]
  rfl

/-! ## Registration (R125, R126) -/

/-- R125, R126: the transport after a pull-down has registered. -/
def Transport.pulled (t : Transport) : Transport :=
  { t with state := .registered, settleTimer := none, settleEnds := none, position := t.position + 1, gate := .fresh }

theorem settleTimerExpiry_idle (h : s.transport.state ≠ .settling) : settleTimerExpiry s = s := if_neg h

theorem settleTimerExpiry_open (h : s.transport.state = .settling) (hopen : s.pins.levels.gateClosed = false) :
    settleTimerExpiry s = s.enterTransportFault .gate := by
  rw [settleTimerExpiry, if_pos h, if_neg (by simp [hopen])]

theorem settleTimerExpiry_pulled (h : s.transport.state = .settling) (hclosed : s.pins.levels.gateClosed = true)
    (hends : s.transport.settleEnds = some .pullDown) :
    settleTimerExpiry s = (State.seriesRegistered { s with transport := s.transport.pulled }).passBlank := by
  rw [settleTimerExpiry, if_pos h, if_pos hclosed, State.register, hends]
  rfl

theorem settleTimerExpiry_gate {gate : Gate} (h : s.transport.state = .settling)
    (hclosed : s.pins.levels.gateClosed = true) (hends : s.transport.settleEnds = some (.registerGate gate)) :
    settleTimerExpiry s = State.passBlank { s with transport := { s.transport with
      state := .registered, settleTimer := none, settleEnds := none, gate := gate } } := by
  rw [settleTimerExpiry, if_pos h, if_pos hclosed, State.register, hends]

theorem seriesRegistered_none (h : s.transport.series = none) : s.seriesRegistered = s := by
  rw [State.seriesRegistered, h]

theorem seriesRegistered_last {x : Series} (h : s.transport.series = some x) (hlast : x.done + 1 = x.count) :
    s.seriesRegistered = State.accept (u8 x.count ++ u16 s.transport.position)
      { s with transport := { s.transport with series := none } } := by
  rw [State.seriesRegistered, h]
  exact if_pos hlast

theorem seriesRegistered_more {x : Series} (h : s.transport.series = some x) (hmore : x.done + 1 ≠ x.count) :
    s.seriesRegistered = s.nextPullDown ⟨x.count, x.done + 1⟩ := by
  rw [State.seriesRegistered, h]
  exact if_neg hmore

/-- No frame is passed in BETWEEN. -/
theorem passBlank_between (h : s.seq.phase = .between) : s.passBlank = s := passBlank_idle fun ⟨hphase, _⟩ => by
  rw [h] at hphase
  cases hphase

/-- R98: no frame is passed but a BLANK one in PREPARING. -/
theorem passBlank_other (h : s.seq.phase ≠ .preparing ∨ ∀ j rest, s.jobs.live = j :: rest → j.work ≠ .blank) :
    s.passBlank = s := by
  refine passBlank_idle fun ⟨hphase, _, j, rest, hlive, hwork⟩ => ?_
  rcases h with h | h
  · exact h hphase
  · exact h j rest hlive hwork

/-- R130: in BETWEEN a registered pull-down only lets its series go on. -/
theorem settle_series (hreset : s.resetPin = false) (hphase : s.seq.phase = .between)
    (h : s.transport.state = .settling) (hclosed : s.pins.levels.gateClosed = true)
    (hends : s.transport.settleEnds = some .pullDown) :
    exec .settleTimerExpiry s = .next (State.seriesRegistered { s with transport := s.transport.pulled }) := by
  rw [exec_settleTimerExpiry, event_outOfReset hreset, settleTimerExpiry_pulled h hclosed hends,
    passBlank_between (by simpa using hphase)]

end Series

section PerfAndSensors

variable {s : State} {f : State → State} {levels : Lines} {level : Bool}

/-! ## Perforations and the pull-down timer (R124) -/

theorem exec_perfPulse (s : State) : exec .perfPulse s = event perfPulse s := rfl

theorem exec_pullDownTimerExpiry (s : State) : exec .pullDownTimerExpiry s = event pullDownTimerExpiry s := rfl

theorem perfPulse_counts {reel : Reel} (h : s.transport.state = .advancing) (hreel : s.reel = some reel) :
    perfPulse s =
      if s.transport.perfs + 1 = reel.perforations then
        { s with transport := ({ s.transport with perfs := s.transport.perfs + 1 } : Transport).startSettle .pullDown }
      else { s with transport := { s.transport with perfs := s.transport.perfs + 1 } } := by
  rw [perfPulse, if_pos h]
  simp [hreel]

/-! ## Film sensors (R120, R121) -/

/-- R188: out of reset a line that keeps its level changes nothing. -/
theorem lineChange_same (hreset : s.resetPin = false) (h : levels = s.pins.levels) : lineChange levels f s = .next s := by
  rw [lineChange, if_neg (by simp [hreset]), if_pos h]

/-- R120: out of reset a change sets the levels and then acts. -/
theorem lineChange_changed (hreset : s.resetPin = false) (h : levels ≠ s.pins.levels) :
    lineChange levels f s = .next (f (s.setLevels levels)) := by
  rw [lineChange, if_neg (by simp [hreset]), if_neg h]

/-- R120: the flag of a line that changes is set; a line that keeps its level keeps its flag. -/
theorem sticky (changed before : Bool) (h : level ≠ before) : (changed || xor before level) = true := by
  cases level <;> cases before <;> simp at h ⊢

/-- R120: the lines with new levels and flags, and LINES raised. -/
def State.withLines (levels changed : Lines) (s : State) : State := State.raise .lines { s with pins := ⟨levels, changed⟩ }

theorem setLevels_withLines {changed : Lines} (h : levels ≠ s.pins.levels)
    (hchanged : Lines.zip (· || ·) s.pins.changed (Lines.zip xor s.pins.levels levels) = changed) :
    s.setLevels levels = s.withLines levels changed := by
  rw [setLevels_eq h, hchanged, State.withLines]

/-- A line change that sets one flag: the state it leaves before its effect. -/
theorem lineChange_flagged {changed : Lines} (hreset : s.resetPin = false) (h : levels ≠ s.pins.levels)
    (hchanged : Lines.zip (· || ·) s.pins.changed (Lines.zip xor s.pins.levels levels) = changed) :
    lineChange levels f s = .next (f (s.withLines levels changed)) := by
  rw [lineChange_changed hreset h, setLevels_withLines h hchanged]

theorem exec_filmPresentChange (level : Bool) (s : State) : exec (.filmPresentChange level) s =
    lineChange { s.pins.levels with filmPresent := level } (filmPresentEffect level) s := rfl

theorem exec_tensionOkChange (level : Bool) (s : State) : exec (.tensionOkChange level) s =
    lineChange { s.pins.levels with tensionOk := level } (tensionOkEffect level) s := rfl

theorem exec_gateClosedChange (level : Bool) (s : State) : exec (.gateClosedChange level) s =
    lineChange { s.pins.levels with gateClosed := level } (gateClosedEffect level) s := rfl

theorem exec_endSensorChange (level : Bool) (s : State) : exec (.endSensorChange level) s =
    lineChange { s.pins.levels with endSensor := level } id s := rfl

theorem filmPresentChange_flagged (hreset : s.resetPin = false) (h : level ≠ s.pins.levels.filmPresent) :
    exec (.filmPresentChange level) s = .next (filmPresentEffect level
      (s.withLines { s.pins.levels with filmPresent := level } { s.pins.changed with filmPresent := true })) := by
  rw [exec_filmPresentChange]
  refine lineChange_flagged hreset (fun he => h (congrArg Lines.filmPresent he)) ?_
  simp [Lines.zip, Rgb.zip, sticky _ _ h]

theorem tensionOkChange_flagged (hreset : s.resetPin = false) (h : level ≠ s.pins.levels.tensionOk) :
    exec (.tensionOkChange level) s = .next (tensionOkEffect level
      (s.withLines { s.pins.levels with tensionOk := level } { s.pins.changed with tensionOk := true })) := by
  rw [exec_tensionOkChange]
  refine lineChange_flagged hreset (fun he => h (congrArg Lines.tensionOk he)) ?_
  simp [Lines.zip, Rgb.zip, sticky _ _ h]

theorem gateClosedChange_flagged (hreset : s.resetPin = false) (h : level ≠ s.pins.levels.gateClosed) :
    exec (.gateClosedChange level) s = .next (gateClosedEffect level
      (s.withLines { s.pins.levels with gateClosed := level } { s.pins.changed with gateClosed := true })) := by
  rw [exec_gateClosedChange]
  refine lineChange_flagged hreset (fun he => h (congrArg Lines.gateClosed he)) ?_
  simp [Lines.zip, Rgb.zip, sticky _ _ h]

theorem endSensorChange_flagged (hreset : s.resetPin = false) (h : level ≠ s.pins.levels.endSensor) :
    exec (.endSensorChange level) s = .next
      (s.withLines { s.pins.levels with endSensor := level } { s.pins.changed with endSensor := true }) := by
  rw [exec_endSensorChange]
  refine lineChange_flagged (f := id) hreset (fun he => h (congrArg Lines.endSensor he)) ?_
  simp [Lines.zip, Rgb.zip, sticky _ _ h]

/-! What a change of each sensor does to the transport, by the transport's state (R121) -/

theorem filmPresentEffect_loads (h : s.transport.state = .empty) :
    filmPresentEffect true s = { s with transport := { s.transport with state := .opened } } := by
  simp [filmPresentEffect, h]

theorem filmPresentEffect_present (h : s.transport.state ≠ .empty) : filmPresentEffect true s = s := by
  unfold filmPresentEffect
  split <;> simp_all

theorem filmPresentEffect_idle (h : (∃ c, s.transport.state = .fault c) ∨ s.transport.state = .empty) :
    filmPresentEffect false s = s := by
  obtain ⟨c, h⟩ | h := h <;> simp [filmPresentEffect, h]

theorem filmPresentEffect_lost (h : ∀ c, s.transport.state ≠ .fault c) (hloaded : s.transport.state ≠ .empty) :
    filmPresentEffect false s = s.enterTransportFault .filmLost := by
  unfold filmPresentEffect
  split <;> simp_all

theorem tensionOkEffect_idle (h : level = true ∨ ¬ (s.transport.state = .advancing ∨ s.transport.state = .settling ∨
    s.transport.state = .registered)) : tensionOkEffect level s = s := by
  unfold tensionOkEffect
  split <;> simp_all

theorem tensionOkEffect_lost (h : s.transport.state = .advancing ∨ s.transport.state = .settling ∨
    s.transport.state = .registered) : tensionOkEffect false s = s.enterTransportFault .tension := by
  obtain h | h | h := h <;> simp [tensionOkEffect, h]

theorem gateClosedEffect_idle (h : level = true ∨ s.transport.state ≠ .registered) : gateClosedEffect level s = s := by
  unfold gateClosedEffect
  split <;> simp_all

theorem gateClosedEffect_open (h : s.transport.state = .registered) :
    gateClosedEffect false s = s.enterTransportFault .gate := by
  simp [gateClosedEffect, h]

end PerfAndSensors

section Blank

variable {s u t : State} {ended : Prop}

/-! ## What a frame end keeps on USED film (R105) -/

/-- The sequencer goes on from USED film with the Job Store, the position and the gate as they are. -/
theorem NextFrame.kept (h : NextFrame u t) (hgate : u.transport.gate = .used) :
    t.jobs = u.jobs ∧ t.transport.position = u.transport.position ∧ t.transport.gate = .used := by
  have halted (hframe : HaltFrame u t) : t.transport.position = u.transport.position ∧ t.transport.gate = .used := by
    rw [hframe.rest]
    exact ⟨rfl, hgate⟩
  cases hlive : u.jobs.live with
  | nil =>
    by_cases hstop : u.run.pendingStop = .none
    · cases hmode : u.run.mode with
      | endOnEmpty =>
        obtain ⟨-, hframe, hjobs⟩ := h.ends hlive hstop hmode
        exact ⟨hjobs, halted hframe⟩
      | holdOnEmpty =>
        obtain ⟨-, -, -, hjobs, -, hframe, -⟩ := h.waits hlive hstop hmode
        exact ⟨hjobs, halted hframe⟩
    · obtain ⟨-, hframe, hjobs⟩ := h.stops hlive hstop
      exact ⟨hjobs, halted hframe⟩
  | cons j rest =>
    by_cases hlost : ∃ ch, (u.monitor.channels.get ch).lost = true
    · obtain ⟨-, hframe, hjobs⟩ := h.clock (by simp [hlive]) hlost
      exact ⟨hjobs, halted hframe⟩
    · have hclocks : ∀ ch, (u.monitor.channels.get ch).lost = false := by simpa using hlost
      by_cases hreg : u.transport.state = .registered
      · by_cases hend : u.pins.levels.endSensor = true ∨
            ∃ r, u.reel = some r ∧ u.transport.position = r.capacity - 1
        · obtain ⟨-, hjobs, htransport, -⟩ := h.atEnd j rest hlive hclocks hgate hreg hend
          exact ⟨hjobs, by rw [htransport], by rw [htransport, hgate]⟩
        · obtain ⟨hsensor, hroom⟩ := not_or.1 hend
          obtain ⟨hprep, htransport⟩ := h.pulls j rest hlive hclocks hgate hreg (by simpa using hsensor)
            fun r hr hpos => hroom ⟨r, hr, hpos⟩
          exact ⟨hprep.jobs, by rw [htransport], by rw [htransport, hgate]⟩
      · obtain ⟨-, hjobs, htransport, -⟩ := h.notReady j rest hlive hclocks hgate hreg
        exact ⟨hjobs, by rw [htransport], by rw [htransport, hgate]⟩

/-- A frame end keeps them too. -/
theorem FrameEnded.kept (h : FrameEnded ended u t) (hgate : u.transport.gate = .used) :
    t.jobs = u.jobs ∧ t.transport.position = u.transport.position ∧ t.transport.gate = .used := by
  have halted (hframe : HaltFrame u t) : t.transport.position = u.transport.position ∧ t.transport.gate = .used := by
    rw [hframe.rest]
    exact ⟨rfl, hgate⟩
  by_cases hstops : u.run.pendingStop = .atFrame ∨ u.run.pendingStop = .now ∨ (u.run.pendingStop = .atJob ∧ ended)
  · obtain ⟨-, hframe, hjobs⟩ := h.stops hstops
    exact ⟨hjobs, halted hframe⟩
  · have hon : u.run.pendingStop = .none ∨ (u.run.pendingStop = .atJob ∧ ¬ ended) := by
      cases hstop : u.run.pendingStop <;> simp_all
    by_cases hpausing : u.run.state = .pausing
    · obtain ⟨-, -, -, hjobs, hframe, -⟩ := h.rests hon hpausing
      exact ⟨hjobs, halted hframe⟩
    · exact (h.goesOn hon hpausing).kept hgate

end Blank

/-! ## The obligations -/

/-- Settles O28: every use count is 0 once the queue is flushed. -/
theorem reelIsOpenedAndClosed : Obligations.ReelIsOpenedAndClosed := by
  refine ⟨fun rt p m s h => ?opens, fun rt m s h huses => ?closes⟩
  case opens =>
    obtain ⟨hrefuses, haccepts⟩ := h.examined_accept (checks := openReelChecks p s) (items := [])
      (t := { s with
        reel := some ⟨p.capacity.toNat, p.perforations.toNat, p.lines.toNat, p.width.toNat, p.offset.toNat⟩
        transport := { s.transport with position := p.start.toNat }
        planes := dropReelPlanes s.planes }) rfl (by rw [exec_openReel, carryOut_handed h]; rfl)
    rw [openReelChecks_eq] at hrefuses haccepts
    exact ⟨hrefuses, fun hp => ⟨dropReelPlanes s.planes, haccepts hp, get_dropReelPlanes s.planes⟩⟩
  case closes =>
    obtain ⟨hrefuses, haccepts⟩ := closeReel_handed h
    have hchecks : closeReelChecks s =
        [ (decide (s.run.state ≠ .stopped), .busy, 0),
          (decide (s.transport.state = .advancing ∨ s.transport.state = .settling), .busy, 1),
          (s.reel.isNone, .noReel, 0), (decide (s.log.entries ≠ []), .logNotEmpty, s.log.entries.length) ] := by
      simp only [closeReelChecks, List.length_pos_iff]
    rw [hchecks] at hrefuses haccepts
    obtain ⟨hplanes, hcurves⟩ := flush_unused huses
    refine ⟨hrefuses, fun hp => ⟨dropReelPlanes s.flush.planes, s.flush.curves, ?_, fun k => ?_, hcurves⟩⟩
    · have hjobs := (flush_flushed s).1
      rw [← flushedJobs, ← hjobs]
      exact haccepts hp
    · rw [get_dropReelPlanes, hplanes]
      rfl

/-- Settles O30: the series at its request, and as each pull-down registers. -/
theorem advanceFramesMakesSeries : Obligations.AdvanceFramesMakesSeries := by
  refine ⟨fun rt count m s h => ?request, fun s x reel hreset hrun hphase hstate hclosed hends hseries hreel => ?register⟩
  case request =>
    obtain ⟨hrefuses, hgoes⟩ := advanceFrames_handed h
    refine ⟨hrefuses, fun hp => ?_⟩
    obtain ⟨hreg, hroom⟩ := advanceFramesChecks_pass hp
    have hexec := hgoes hp
    rw [await_handed h] at hexec
    refine ⟨fun hend => ?_, fun hend => ?_⟩
    · exact hexec.trans (congrArg Host.Outcome.next (nextPullDown_taken _ hreg hend hroom))
    · exact hexec.trans (congrArg Host.Outcome.next (nextPullDown_ends _ hreg hend))
  case register =>
    have hexec := settle_series hreset hphase hstate hclosed hends
    refine ⟨fun hlast => ?_, fun hmore hend => ?_, fun hmore hend hpos => ?_⟩
    · exact hexec.trans (congrArg Host.Outcome.next (seriesRegistered_last hseries hlast))
    · rw [hexec, seriesRegistered_more (s := { s with transport := s.transport.pulled }) hseries hmore]
      exact congrArg Host.Outcome.next (nextPullDown_ends _ rfl hend)
    · rw [hexec, seriesRegistered_more (s := { s with transport := s.transport.pulled }) hseries hmore]
      refine congrArg Host.Outcome.next (nextPullDown_taken _ rfl hend fun r hr => ?_)
      obtain rfl : reel = r := Option.some.inj (hreel.symm.trans hr)
      exact hpos

/-- Settles O31: pulses and timers by the state of the transport. -/
theorem pullDownRegistersFilm : Obligations.PullDownRegistersFilm := by
  refine ⟨fun x => by cases x <;> simp [TransportState.gateDrive, TransportState.pullDownDrive], fun s hreset =>
    ⟨fun reel h hreel => ?_, fun h => ?_, fun h => ?_⟩, fun s hreset => ?settle⟩
  · rw [exec_perfPulse, event_outOfReset hreset, perfPulse_counts h hreel]
    exact ⟨fun hfew => by rw [if_neg hfew], fun hlast => by rw [if_pos hlast]; rfl⟩
  · refine ⟨_, ?_, enterTransportFault_faulted .perfTimeout s⟩
    rw [exec_pullDownTimerExpiry, event_outOfReset hreset, pullDownTimerExpiry, if_pos h]
  · rw [exec_perfPulse, exec_pullDownTimerExpiry, event_outOfReset hreset, event_outOfReset hreset, perfPulse,
      pullDownTimerExpiry, if_neg h, if_neg h]
    exact ⟨rfl, rfl⟩
  case settle =>
    intro noBlank
    rw [exec_settleTimerExpiry, event_outOfReset hreset]
    refine ⟨fun h => by rw [settleTimerExpiry_idle h], fun h hopen => ⟨_, ?_, enterTransportFault_faulted .gate s⟩,
      fun gate h hclosed hnoBlank hends => ?_, fun h hclosed hnoBlank hends hseries => ?_⟩
    · rw [settleTimerExpiry_open h hopen]
    · rw [settleTimerExpiry_gate h hclosed hends]
      exact congrArg Host.Outcome.next (passBlank_other hnoBlank)
    · rw [settleTimerExpiry_pulled h hclosed hends,
        seriesRegistered_none (s := { s with transport := s.transport.pulled }) hseries]
      exact congrArg Host.Outcome.next (passBlank_other hnoBlank)

/-- Settles O32: each sensor sets its flag and then acts by the state of the transport. -/
theorem filmSensorsMoveTransport : Obligations.FilmSensorsMoveTransport := by
  intro s level hreset lines
  refine ⟨?film, fun h => ?filmMoves, ?tension, fun h => ?tensionMoves, ?gate, fun h => ?gateMoves, ?endSensor,
    fun h => endSensorChange_flagged hreset h⟩
  case film | tension | gate | endSensor =>
    rintro rfl
    exact lineChange_same hreset rfl
  case filmMoves =>
    intro u
    have hexec := filmPresentChange_flagged hreset h
    refine ⟨?_, ?_, ?_, ?_⟩
    · rintro rfl hempty
      exact hexec.trans (congrArg Host.Outcome.next (filmPresentEffect_loads hempty))
    · rintro rfl hloaded
      exact hexec.trans (congrArg Host.Outcome.next (filmPresentEffect_present hloaded))
    · rintro rfl hidle
      exact hexec.trans (congrArg Host.Outcome.next (filmPresentEffect_idle hidle))
    · rintro rfl hnoFault hloaded
      exact ⟨_, hexec.trans (congrArg Host.Outcome.next (filmPresentEffect_lost hnoFault hloaded)),
        enterTransportFault_faulted _ _⟩
  case tensionMoves =>
    intro u loaded
    have hexec := tensionOkChange_flagged hreset h
    refine ⟨fun hidle => hexec.trans (congrArg Host.Outcome.next (tensionOkEffect_idle hidle)), ?_⟩
    rintro rfl hloaded
    exact ⟨_, hexec.trans (congrArg Host.Outcome.next (tensionOkEffect_lost hloaded)), enterTransportFault_faulted _ _⟩
  case gateMoves =>
    intro u
    have hexec := gateClosedChange_flagged hreset h
    refine ⟨fun hidle => hexec.trans (congrArg Host.Outcome.next (gateClosedEffect_idle hidle)), ?_⟩
    rintro rfl hreg
    exact ⟨_, hexec.trans (congrArg Host.Outcome.next (gateClosedEffect_open hreg)), enterTransportFault_faulted _ _⟩

/-- Settles O25: the registration passes the frame, and the frame end keeps the Job Store so left. -/
theorem blankFrameIsPassed : Obligations.BlankFrameIsPassed := by
  intro s j rest hreset hphase hlive hwork hstate hends hseries hclosed
  have hexec : exec .settleTimerExpiry s = .next (State.passBlank { s with transport := s.transport.pulled }) := by
    rw [exec_settleTimerExpiry, event_outOfReset hreset, settleTimerExpiry_pulled hstate hclosed hends,
      seriesRegistered_none (s := { s with transport := s.transport.pulled }) hseries]
  obtain ⟨u, hu, hended⟩ := passBlank_passed (s := { s with transport := s.transport.pulled }) hlive hwork hphase rfl rfl
  obtain ⟨hjobs, hposition, hgate⟩ := hended.kept (by rw [hu])
  obtain ⟨hplanes, hcurves, -⟩ := passBlank_tables { s with transport := s.transport.pulled }
  rw [hu] at hjobs hposition hended
  refine ⟨_, hexec, hended, hjobs, hposition, hgate, hplanes, hcurves, ?_⟩
  simp

end Sys2Proof.Machine
end

section
/-! The clean end of a frame, with what a job that ends COMPLETE releases; and the facet syncs that begin an exposure, drive
its lines and end it. -/

namespace Sys2Proof.Machine

section CleanEnd

variable {s : State} {j : Job} {rest : List Job} {ch : Channel}

/-! ## The head job at a clean end (R104, R105, R110) -/

theorem exec_frameCleanEnd (s : State) : exec .frameCleanEnd s = event frameCleanEnd s := rfl

/-- R104: the last pixel of the last line ends the frame. -/
theorem frameCleanEnd_ends (hphase : s.seq.phase = .exposing)
    (hlast : s.seq.lineCounter + 1 = (s.reel.map Reel.lines).getD 0) : frameCleanEnd s = s.cleanEnd :=
  if_pos ⟨hphase, hlast⟩

/-- The completion of the head job touches the Job Store and the two tables. -/
theorem completeHead_eq (s : State) : s.completeHead = { s with
    jobs := s.completeHead.jobs, planes := s.completeHead.planes, curves := s.completeHead.curves } := by
  have hend (j : Job) : s.endJob .complete j = { s with
      jobs := (s.endJob .complete j).jobs
      planes := (s.endJob .complete j).planes
      curves := (s.endJob .complete j).curves } := by
    simp only [State.endJob, State.releasePlanes, if_true]
    split <;> rfl
  unfold State.completeHead
  split
  · split
    · exact hend _
    · rfl
  · rfl

theorem completeHead_done (hlive : s.jobs.live = j :: rest) (hdone : j.framesDone = j.repeatCount) :
    s.completeHead = s.endJob .complete j := by
  rw [State.completeHead, State.head, hlive, List.head?_cons]
  exact if_pos hdone

theorem completeHead_more (hlive : s.jobs.live = j :: rest) (hmore : j.framesDone ≠ j.repeatCount) :
    s.completeHead = s := by
  rw [State.completeHead, State.head, hlive, List.head?_cons]
  exact if_neg hmore

theorem headDone_iff (hlive : s.jobs.live = j :: rest) : s.headDone = true ↔ j.framesDone = j.repeatCount := by
  rw [State.headDone, State.head, hlive, List.head?_cons]
  exact decide_eq_true_iff

/-- R16: the Job Store once the head job has ended COMPLETE. -/
theorem completeHead_jobs (hlive : s.jobs.live = j :: rest) (hdone : j.framesDone = j.repeatCount) :
    s.completeHead.jobs = ⟨rest, s.jobs.results ++ [{ j with outcome := some .complete }]⟩ := by
  rw [completeHead_done hlive hdone, endJob_jobs, hlive, List.eraseP_cons_of_pos (by simp)]

/-- R104 step 3: the head job's record once the frame is counted. -/
def Job.counted (saturation : Bool) (j : Job) : Job :=
  { j with framesDone := j.framesDone + 1, saturated := if saturation then j.saturated + 1 else j.saturated }

/-- R110 step 1: the head job's record once a suspect frame is counted. -/
def Job.suspected (saturation : Bool) (j : Job) : Job :=
  { j.counted saturation with suspect := min (j.suspect + 1) 64 }

theorem countFrame_jobs (hlive : s.jobs.live = j :: rest) :
    s.countFrame.jobs = ⟨j.counted s.seq.saturation :: rest, s.jobs.results⟩ := by
  simp only [State.countFrame, State.modifyHead, blankDrive, hlive]
  rfl

theorem logSuspect_jobs (hlive : s.jobs.live = j :: rest) :
    (s.countFrame.logSuspect ch).jobs = ⟨j.suspected s.seq.saturation :: rest, s.jobs.results⟩ := by
  simp only [State.logSuspect, State.modifyHead, countFrame_jobs hlive]
  rfl

theorem cleanEnd_clean (h : s.seq.suspect = none) : s.cleanEnd = s.countFrame.takeMeans.frameEnd.passBlank := by
  rw [State.cleanEnd, h]

theorem cleanEnd_suspect (h : s.seq.suspect = some ch) :
    s.cleanEnd = (s.countFrame.logSuspect ch).completeHead.halt .monitorLost := by
  rw [State.cleanEnd, h]
  rfl

/-- R104, R164: a channel's mean at a clean end. -/
theorem takeMeans_channel (s : State) (ch : Channel) (n : Nat) (hlines : (s.reel.map Reel.lines).getD 0 = n) :
    let c := s.monitor.channels.get ch
    let c' := s.countFrame.takeMeans.monitor.channels.get ch
    c' = { c with expecting := false, applied := false, valid := decide (c.count = n), mean := c'.mean } ∧
      (c.count = n → c'.mean = c.sum / c.count) := by
  intro c c'
  have hmean : c' = MonitorChannel.frameMean n { c with expecting := false } := by
    rw [← hlines]
    cases ch <;> rfl
  rw [hmean, MonitorChannel.frameMean]
  by_cases hcount : c.count = n
  · rw [if_pos hcount]
    exact ⟨by simp [hcount], fun _ => rfl⟩
  · rw [if_neg hcount]
    exact ⟨by simp [hcount], fun h => absurd h hcount⟩

/-! ## What a completed job releases (R10, R17) -/

/-- R17: the planes once a job with this work has ended COMPLETE. -/
def releasedPlanes (w : Work) (planes : Table Plane) : Table Plane :=
  if w.release then
    (usePlanes (· - 1) w.planes planes).filter fun e =>
      !(((w.planes.filter Selector.isReel).map Selector.wire).contains e.1 && decide (e.2.use = 0))
  else usePlanes (· - 1) w.planes planes

theorem endJob_complete (s : State) (j : Job) :
    (s.endJob .complete j).planes = releasedPlanes j.work s.planes ∧
    (s.endJob .complete j).curves = useCurve (· - 1) j.work.curve s.curves := by
  simp only [State.endJob, State.releasePlanes, releasedPlanes, if_true]
  split <;> exact ⟨rfl, rfl⟩

/-- A frame end leaves the tables as the completion of the head job leaves them. -/
theorem frameEnd_tables (s : State) :
    s.frameEnd.planes = s.completeHead.planes ∧ s.frameEnd.curves = s.completeHead.curves := by
  simp only [State.frameEnd]
  split
  · simp
  · split <;> simp

/-- R105, R110: the tables after the clean end of a frame with which its job ends. -/
theorem cleanEnd_tables (hlive : s.jobs.live = j :: rest) (hdone : j.framesDone + 1 = j.repeatCount) :
    s.cleanEnd.planes = releasedPlanes j.work s.planes ∧
    s.cleanEnd.curves = useCurve (· - 1) j.work.curve s.curves := by
  cases hsuspect : s.seq.suspect with
  | none =>
    rw [cleanEnd_clean hsuspect, (passBlank_tables _).1, (passBlank_tables _).2.1, (frameEnd_tables _).1,
      (frameEnd_tables _).2, completeHead_done (s := s.countFrame.takeMeans) (j := j.counted s.seq.saturation)
        (rest := rest)
        (congrArg JobStore.live (countFrame_jobs hlive)) hdone]
    exact endJob_complete s.countFrame.takeMeans _
  | some ch =>
    rw [cleanEnd_suspect hsuspect, completeHead_done (j := j.suspected s.seq.saturation) (rest := rest)
      (congrArg JobStore.live (logSuspect_jobs hlive)) hdone]
    exact endJob_complete (s.countFrame.logSuspect ch) _

/-- What a number of a table in canonical form holds once listed values have been dropped. -/
theorem Table.get_filter {α : Type} {a : Table α} (h : Table.wf a) (p : Nat × α → Bool) (k : Nat) :
    Table.get (a.filter p) k = (Table.get a k).filter fun v => p (k, v) := by
  cases hget : Table.get (a.filter p) k with
  | some v =>
    obtain ⟨hmem, hp⟩ := List.mem_filter.1 (Table.mem_of_get hget)
    rw [Table.get_of_mem h hmem]
    simp [Option.filter, hp]
  | none =>
    cases hall : Table.get a k with
    | none => rfl
    | some v =>
      have hdrop : p (k, v) = false := by
        by_contra hp
        have hkept := Table.get_of_mem (h.filter p)
          (List.mem_filter.2 ⟨Table.mem_of_get hall, by simpa using hp⟩)
        rw [hget] at hkept
        cases hkept
      simp [Option.filter, hdrop]

/-- Which table a selector within its table names, told from its wire value. -/
theorem isReel_iff {sel : Selector} (h : sel.inTable) : sel.isReel = true ↔ 0x8000 ≤ sel.wire := by
  cases sel with
  | global i =>
    simp only [Selector.isReel, Selector.wire, Selector.inTable] at h ⊢
    simp only [Bool.false_eq_true, false_iff]
    omega
  | reel i => simp [Selector.isReel, Selector.wire]

theorem mem_freed {w : Work} (hin : ∀ sel ∈ w.planes, sel.inTable) (k : Nat) :
    k ∈ (w.planes.filter Selector.isReel).map Selector.wire ↔
      k ∈ w.planes.map Selector.wire ∧ 0x8000 ≤ k := by
  simp only [List.mem_map, List.mem_filter]
  constructor
  · rintro ⟨sel, ⟨hsel, hreel⟩, rfl⟩
    exact ⟨⟨sel, hsel, rfl⟩, (isReel_iff (hin sel hsel)).1 hreel⟩
  · rintro ⟨⟨sel, hsel, rfl⟩, hk⟩
    exact ⟨sel, ⟨hsel, (isReel_iff (hin sel hsel)).2 hk⟩, rfl⟩

/-- R10, R17: what a defined descriptor holds once a job has ended COMPLETE. -/
theorem releasedPlanes_get {w : Work} {planes : Table Plane} (hwf : Table.wf planes)
    (hin : ∀ sel ∈ w.planes, sel.inTable) {k : Nat} {d : Plane} (hget : Table.get planes k = some d) :
    Table.get (releasedPlanes w planes) k =
      if k ∈ w.planes.map Selector.wire then
        if w.release = true ∧ 0x8000 ≤ k ∧ d.use - 1 = 0 then none else some { d with use := d.use - 1 }
      else some d := by
  have hused := usePlanes_get (· - 1) (Work.wires_nodup hin) planes k
  rw [hget, Option.map_some] at hused
  unfold releasedPlanes
  cases hrelease : w.release
  · simp [hused]
  · rw [if_pos rfl, Table.get_filter (usePlanes_wf _ _ hwf), hused]
    simp only [List.contains_eq_mem, mem_freed hin]
    by_cases hnamed : k ∈ w.planes.map Selector.wire
    · by_cases hreel : 0x8000 ≤ k <;> by_cases hzero : d.use - 1 = 0 <;>
        simp only [hnamed, hreel, hzero, Option.filter] <;> simp [hzero]
    · simp only [hnamed, Option.filter]
      simp

end CleanEnd

section FacetSync

variable {s b : State} {j : Job} {rest : List Job} {reel : Reel} {line facet elapsed period : Nat}

/-! ## A line at its facet sync (R100 to R103) -/

/-- A line laid out for a state whose corrections, trims, placement and curves are those of `s`, with the mark before
it. -/
theorem layLine_marked {work : Work} {rows : List Row} {u : State}
    (hc : u.scan.corrections = s.scan.corrections)
    (hm : ∀ ch, (u.monitor.channels.get ch).trim = (s.monitor.channels.get ch).trim) (hp : u.placement = s.placement)
    (hv : u.curves = s.curves) (hf : u.freeEpoch = s.freeEpoch)
    (hq : ∀ planes curve release set rest, work = .expose planes curve release → s.seq.queue = set :: rest →
      rows = set.rows) :
    ∃ d, LineDriven line facet work reel s d ∧ d.markBefore = u.seq.saturation ∧
      layLine line facet reel work rows u = { u with
        drive := some d
        seq := { u.seq with saturation := u.seq.saturation || d.pixels.any (PixelRow.clampedIn reel.width) }
        monitor := { u.monitor with
          channels := u.monitor.channels.map fun c => { c with expecting := decide (d.delay ≠ 0) && !c.lost } } } := by
  obtain ⟨d, hdriven, hlay⟩ := layLine_driven (line := line) (facet := facet) (reel := reel) hc hm hp hv hf hq
  have hmark : (layLine line facet reel work rows u).drive.map LineDrive.markBefore = some u.seq.saturation := rfl
  rw [hlay] at hmark
  exact ⟨d, hdriven, Option.some.inj hmark, hlay⟩

/-- R100 to R103: the state after a line has been driven, its drive `d` beside the queue, the set in assembly and the
arbiter. -/
structure Driven (reel : Reel) (d : LineDrive) (work : Work) (b t : State) : Prop where
  drives : t = { b with
    drive := some d
    seq := { b.seq with
      saturation := b.seq.saturation || d.pixels.any (PixelRow.clampedIn reel.width)
      queue := t.seq.queue
      assembly := t.seq.assembly }
    arbiter := t.arbiter
    monitor := { b.monitor with
      channels := b.monitor.channels.map fun c => { c with expecting := decide (d.delay ≠ 0) && !c.lost } } }
  expose : ∀ p c r, work = .expose p c r → t.seq.queue = b.seq.queue.tail ∧
    Prefetched { b with seq := { b.seq with queue := b.seq.queue.tail } } t
  flash : ∀ c v, work = .flash c v →
    t.arbiter = b.arbiter ∧ t.seq.assembly = b.seq.assembly ∧ t.seq.queue = b.seq.queue

/-- R101: the line of a frame that is not BLANK is provided: from the set at the head of the queue, or from the flash
values. `s` is the state before the sync, of which `b` keeps what the drive rests on. -/
theorem driveLine_driven (hlive : b.jobs.live = j :: rest) (hreel : b.reel = some reel) (hwork : j.work ≠ .blank)
    (hset : ∀ p c r, j.work = .expose p c r → b.seq.queue ≠ []) (hqueue : b.seq.queue = s.seq.queue)
    (hc : b.scan.corrections = s.scan.corrections)
    (hm : ∀ ch, (b.monitor.channels.get ch).trim = (s.monitor.channels.get ch).trim) (hp : b.placement = s.placement)
    (hv : b.curves = s.curves) (hf : b.freeEpoch = s.freeEpoch) :
    ∃ d, LineDriven line facet j.work reel s d ∧ d.markBefore = b.seq.saturation ∧
      Driven reel d j.work b (b.driveLine line facet) := by
  cases hw : j.work with
  | blank => exact absurd hw hwork
  | flash curve values =>
    obtain ⟨d, hdriven, hmark, hlay⟩ := layLine_marked (line := line) (facet := facet) (reel := reel)
      (work := .flash curve values) (rows := []) hc hm hp hv hf fun _ _ _ _ _ hx => (nomatch hx)
    rw [driveLine_flash hlive hreel hw, hw, hlay]
    exact ⟨d, hdriven, hmark, rfl, fun _ _ _ hx => (nomatch hx), fun _ _ _ => ⟨rfl, rfl, rfl⟩⟩
  | expose planes curve release =>
    obtain ⟨set, sets, hq⟩ := List.exists_cons_of_ne_nil (hset _ _ _ hw)
    obtain ⟨d, hdriven, hmark, hlay⟩ := layLine_marked (line := line) (facet := facet) (reel := reel)
      (work := .expose planes curve release) (rows := set.rows)
      (u := { b with seq := { b.seq with queue := sets } }) hc hm hp hv hf fun _ _ _ first more _ hx => by
        rw [← hqueue, hq] at hx
        cases hx
        rfl
    rw [driveLine_expose hlive hreel hw hq, hw, hlay]
    refine ⟨d, hdriven, hmark, ?_, fun _ _ _ _ => ?_, fun _ _ hx => (nomatch hx)⟩
    · rw [prefetch_only]
    · refine ⟨by rw [prefetch_only, hq]; rfl, ?_⟩
      rw [hq]
      exact (prefetch_prefetched _).left rfl rfl rfl rfl rfl rfl rfl rfl

/-! ## The start of an exposure (R94, R99) -/

/-- R94: the exposure start conditions of the head job's frame. -/
theorem mayExpose_iff (hlive : s.jobs.live = j :: rest) (hreel : s.reel = some reel) (hlocked : s.scan.state = .locked) :
    s.mayExpose = true ↔
      j.work ≠ .blank ∧ (∀ p c r, j.work = .expose p c r → min 8 reel.lines ≤ s.seq.queue.length) ∧
      s.transport.state = .registered ∧ s.transport.gate = .fresh ∧ s.lasers = ⟨.ready, .ready, .ready⟩ ∧
      s.pins.levels.interlock = true ∧ ∀ ch, (s.monitor.channels.get ch).lost = false := by
  have hlasers : s.lasers.all (fun l => decide (l = .ready)) = true ↔ s.lasers = ⟨.ready, .ready, .ready⟩ := by
    obtain ⟨r, g, b⟩ := s.lasers
    simp [Rgb.all, and_assoc]
  have hclocks : (!s.monitor.anyLost) = true ↔ ∀ ch, (s.monitor.channels.get ch).lost = false := by
    rw [Monitor.anyLost]
    constructor
    · intro h ch
      cases ch <;> simp_all [Rgb.any, Rgb.get]
    · intro h
      simpa [Rgb.any, Rgb.get] using ⟨⟨h .red, h .green⟩, h .blue⟩
  rw [State.mayExpose, State.head, hlive, List.head?_cons]
  simp only [Bool.and_eq_true, isReady_iff, hlocked, hlasers, hclocks, decide_true, and_true]
  cases j.work with
  | blank => simp
  | flash curve values => simp [and_assoc]
  | expose planes curve release => simp [State.rasterLines, hreel, and_assoc]

theorem facetSync_preparing (hphase : s.seq.phase = .preparing) :
    s.facetSync facet elapsed = if s.mayExpose then s.beginExposing.driveLine 0 facet else s := by
  rw [State.facetSync, hphase]

/-- R99 step 1, R6: the Job Store once the frame enters EXPOSING. -/
theorem beginExposing_jobs (hlive : s.jobs.live = j :: rest) :
    s.beginExposing.jobs = ⟨j.atPosition s.transport.position :: rest, s.jobs.results⟩ := by
  simp only [State.beginExposing, State.modifyHead, hlive]

/-! ## A facet sync in EXPOSING (R100, R101, R104) -/

theorem facetSync_next (hphase : s.seq.phase = .exposing) (hreel : s.reel = some reel)
    (hmore : s.seq.lineCounter + 1 < reel.lines) :
    s.facetSync facet elapsed = State.driveLine (s.seq.lineCounter + 1) facet
      { cutLine elapsed s with seq := { (cutLine elapsed s).seq with lineCounter := s.seq.lineCounter + 1 } } := by
  rw [State.facetSync, hphase]
  exact if_pos (by rw [State.rasterLines, hreel]; exact hmore)

theorem facetSync_last (hphase : s.seq.phase = .exposing) (hreel : s.reel = some reel)
    (hlast : s.seq.lineCounter + 1 = reel.lines) : s.facetSync facet elapsed = (cutLine elapsed s).cleanEnd := by
  rw [State.facetSync, hphase]
  refine if_neg ?_
  rw [State.rasterLines, hreel, Option.map_some, Option.getD_some]
  omega

/-- R100, R103: the mark of a line cut short, told from the pixel period. -/
theorem cutLine_begun {old : LineDrive} {pixel : Nat} (hdrive : s.drive = some old) (hreel : s.reel = some reel)
    (hpixel : s.scan.geometry.pixelPeriod = pixel) :
    cutLine elapsed s = { s with seq := { s.seq with
      saturation := old.markBefore || old.pixels.any (PixelRow.clampedIn
        (min reel.width (((elapsed - old.delay) * 1000 + (pixel - 1)) / pixel))) } } := by
  subst hpixel
  exact cutLine_marked hdrive hreel

theorem cutLine_idle (h : s.drive = none) : cutLine elapsed s = s := by
  rw [cutLine, h]

theorem driveLine_underrun {p : Rgb Selector} {c : Nat} {r : Bool} (hlive : s.jobs.live = j :: rest)
    (hreel : s.reel = some reel) (hwork : j.work = .expose p c r) (hqueue : s.seq.queue = []) :
    s.driveLine line facet = s.spoil .underrun line none := by
  unfold State.driveLine State.head
  rw [hlive, hreel, hqueue]
  simp only [List.head?_cons, hwork]

/-- The next line is under way, with the mark that the line before has left. -/
def State.nextLine (marked : Bool) (s : State) : State :=
  { s with seq := { s.seq with saturation := marked, lineCounter := s.seq.lineCounter + 1 } }

theorem facetSync_nextLine {marked : Bool} (hphase : s.seq.phase = .exposing) (hreel : s.reel = some reel)
    (hmore : s.seq.lineCounter + 1 < reel.lines)
    (hcut : cutLine elapsed s = { s with seq := { s.seq with saturation := marked } }) :
    s.facetSync facet elapsed = (s.nextLine marked).driveLine (s.seq.lineCounter + 1) facet := by
  rw [facetSync_next hphase hreel hmore, hcut, State.nextLine]

/-- R146, R147: a sync that is passed on changes the scan, and neither its state, its corrections nor its geometry. -/
theorem synced_eq (elapsed period : Nat) (s : State) : ∃ c : Scan,
    synced elapsed period s = { s with scan := c } ∧ c.state = s.scan.state ∧ c.corrections = s.scan.corrections ∧
      c.geometry = s.scan.geometry :=
  ⟨_, rfl, rfl, rfl, rfl⟩

/-- R104: FRAME_CLEAN_END on the last line. -/
theorem exec_frameCleanEnd_last (hreset : s.resetPin = false) (hphase : s.seq.phase = .exposing)
    (hreel : s.reel = some reel) (hlast : s.seq.lineCounter + 1 = reel.lines) :
    exec .frameCleanEnd s = .next s.cleanEnd := by
  rw [exec_frameCleanEnd, event_outOfReset hreset, frameCleanEnd_ends hphase (by rw [hreel]; exact hlast)]

end FacetSync

/-! ## The obligations -/

/-- Settles O22: the frame is counted and its means made; the frame end follows. -/
theorem cleanEndCountsFrame : Obligations.CleanEndCountsFrame := by
  intro s j rest hreset hphase hlive hlast hsuspect counted done
  have hexec : exec .frameCleanEnd s = .next s.countFrame.takeMeans.frameEnd.passBlank := by
    rw [exec_frameCleanEnd, event_outOfReset hreset, frameCleanEnd_ends hphase hlast, cleanEnd_clean hsuspect]
  have hcounted : s.countFrame.takeMeans.jobs.live = counted :: rest := congrArg JobStore.live (countFrame_jobs hlive)
  have hresults : s.countFrame.takeMeans.jobs.results = s.jobs.results :=
    (congrArg JobStore.results (countFrame_jobs hlive) :)
  refine ⟨s.countFrame.takeMeans.completeHead, _, hexec, ?_, fun hdone => ?_, fun hmore => ?_, ?_, fun ch => ?_, ?_⟩
  · rw [completeHead_eq s.countFrame.takeMeans]
    rfl
  · rw [completeHead_jobs hcounted hdone, hresults]
  · rw [completeHead_more hcounted hmore]
    exact ⟨countFrame_jobs hlive, rfl, rfl⟩
  · rw [completeHead_eq s.countFrame.takeMeans]
    rfl
  · rw [completeHead_eq s.countFrame.takeMeans]
    exact takeMeans_channel s ch _ hlast.symm
  · have hended := frameEnd_ended s.countFrame.takeMeans (by simp)
    have hdone : (s.countFrame.takeMeans.headDone = true) = done := propext (headDone_iff hcounted)
    rw [hdone] at hended
    exact hended.passed

/-- Settles O23: what the job named is used once less, and freed REEL descriptors become UNDEFINED. -/
theorem completedJobReleasesPlanes : Obligations.CompletedJobReleasesPlanes := by
  intro s j rest hreset hphase hlive hdone hlast huses
  have hexec : exec .frameCleanEnd s = .next s.cleanEnd := by
    rw [exec_frameCleanEnd, event_outOfReset hreset, frameCleanEnd_ends hphase hlast]
  obtain ⟨hplanes, hcurves⟩ := cleanEnd_tables hlive hdone
  have hcurve {set : Nat} (hwork : j.work.curve = some set) (k : Nat) :
      Table.get s.cleanEnd.curves k = (Table.get s.curves k).map fun c =>
        if k = set then { c with use := c.use - 1 } else c := by
    rw [hcurves, hwork, useCurve_get]
    simp only [Option.some.injEq, eq_comm (a := k)]
    split <;> simp
  refine ⟨s.cleanEnd, hexec, fun planes curve release hwork => ⟨fun k d hd => ?_, hcurve (by rw [hwork]; rfl)⟩,
    fun curve values hwork => ⟨?_, hcurve (by rw [hwork]; rfl)⟩⟩
  · intro named
    have hin : ∀ sel ∈ j.work.planes, sel.inTable := fun sel hsel => (huses.defined j (by simp [hlive]) sel hsel).1
    have hget := releasedPlanes_get huses.planesWf hin hd
    have hnamed : k ∈ j.work.planes.map Selector.wire ↔ named := by
      rw [hwork]
      simp only [List.mem_map, Work.planes, Rgb.mem_distinct]
      grind
    have hrelease : j.work.release = release := by rw [hwork]; rfl
    rw [hplanes, hget, hrelease]
    refine ⟨fun hnot => by rw [if_neg (mt hnamed.1 hnot)], fun hyes hfree hreel huse => ?_, fun hyes hkeep => ?_⟩
    · rw [if_pos (hnamed.2 hyes), if_pos ⟨hfree, hreel, by omega⟩]
    · have husers : 0 < d.use := by
        rw [huses.counted.planeUse k d hd, List.countP_pos_iff]
        refine ⟨j.work, by simp [State.works, hlive], ?_⟩
        simpa [Work.names] using hnamed.2 hyes
      rw [if_pos (hnamed.2 hyes), if_neg]
      rintro ⟨hfree, hreel, hzero⟩
      rcases hkeep with hkept | hglobal | hshared
      · rw [hfree] at hkept
        cases hkept
      · omega
      · omega
  · rw [hplanes, hwork]
    rfl

/-- Settles O24: the suspect frame is counted and logged, and the run halts. -/
theorem suspectEndHaltsRun : Obligations.SuspectEndHaltsRun := by
  intro s j rest ch hreset hphase hlive hlast hsuspect counted done
  have hexec : exec .frameCleanEnd s = .next ((s.countFrame.logSuspect ch).completeHead.halt .monitorLost) := by
    rw [exec_frameCleanEnd, event_outOfReset hreset, frameCleanEnd_ends hphase hlast, cleanEnd_suspect hsuspect]
  have hjobs : (s.countFrame.logSuspect ch).jobs = ⟨counted :: rest, s.jobs.results⟩ := logSuspect_jobs hlive
  have hhead := congrArg JobStore.live hjobs
  refine ⟨(s.countFrame.logSuspect ch).completeHead, _, hexec, ?_, fun hdone => ?_, fun hmore => ?_, ?_, fun c => ?_, ?_,
    halt_halted _ _, halt_frame _ _⟩
  · rw [completeHead_eq (s.countFrame.logSuspect ch)]
    rfl
  · rw [completeHead_jobs hhead hdone, hjobs]
  · rw [completeHead_more hhead hmore]
    exact ⟨hjobs, rfl, rfl⟩
  · rw [completeHead_eq (s.countFrame.logSuspect ch)]
    rfl
  · rw [completeHead_eq (s.countFrame.logSuspect ch)]
    cases c <;> rfl
  · have htag : s.countFrame.headTag = some j.tag := by
      rw [State.headTag, State.head, countFrame_jobs hlive]
      rfl
    rw [completeHead_eq (s.countFrame.logSuspect ch)]
    simp only [State.logSuspect, htag]
    rfl

/-- Settles O26: the frame enters EXPOSING where the start conditions hold, and line 0 is driven. -/
theorem facetSyncBeginsExposure : Obligations.FacetSyncBeginsExposure := by
  intro elapsed period s j rest reel hsync hphase hlive hreel hlines start first begun
  have hexec := sosPulse_passed hsync
  obtain ⟨scan, hsynced, hstate, hcorrections, -⟩ := synced_eq elapsed period s
  rw [hsynced] at hexec ⊢
  rw [facetSync_preparing (s := { s with scan := scan }) hphase] at hexec
  have hmay : State.mayExpose { s with scan := scan } = true ↔ start :=
    mayExpose_iff (s := { s with scan := scan }) hlive hreel (hstate.trans hsync.locked)
  refine ⟨fun hnot => by rw [hexec, if_neg (mt hmay.1 hnot)], fun hstart => ?_⟩
  rw [if_pos (hmay.2 hstart)] at hexec
  obtain ⟨hwork, hsets, -, -, -, -, hclocks⟩ := hstart
  have hjobs : (State.beginExposing { s with scan := scan }).jobs = ⟨begun :: rest, s.jobs.results⟩ :=
    beginExposing_jobs (s := { s with scan := scan }) hlive
  obtain ⟨d, hdriven, hmark, hdrives, hexpose, hflash⟩ :=
    driveLine_driven (b := State.beginExposing { s with scan := scan }) (s := s) (line := 0)
      (facet := s.scan.facetCount) (congrArg JobStore.live hjobs) hreel hwork (fun p c r hx => by
        have hlen := hsets p c r hx
        exact List.ne_nil_of_length_pos (l := s.seq.queue) (by omega))
      rfl hcorrections (fun ch => by cases ch <;> rfl) rfl rfl rfl
  generalize (State.beginExposing { s with scan := scan }).driveLine 0 s.scan.facetCount = t at *
  have htjobs : t.jobs = ⟨begun :: rest, s.jobs.results⟩ := by rw [hdrives, hjobs]
  refine ⟨t, d, hexec, ?_⟩
  refine ⟨by rw [hdrives], hdriven, hmark, ?_⟩
  refine ⟨by rw [hdrives]; rfl, by rw [hdrives]; rfl, by rw [hdrives]; rfl, by rw [hdrives]; rfl,
    by rw [hdrives]; rfl, by rw [hdrives]; rfl, fun p c r hx => ?_, fun c v hx => ?_, by rw [hdrives]; rfl, htjobs,
    fun ch => ?_, ?_⟩
  · obtain ⟨hqueue, hprefetched⟩ := hexpose p c r hx
    exact ⟨hqueue, hprefetched.left (htjobs.trans hjobs.symm) rfl rfl rfl rfl rfl rfl rfl⟩
  · exact hflash c v hx
  · have hnew : (State.beginExposing { s with scan := scan }).monitor.channels.get ch =
        (s.monitor.channels.get ch).newFrame := by cases ch <;> rfl
    rw [hdrives]
    refine (Rgb.get_map _ _ ch).trans ?_
    simp [hnew, MonitorChannel.newFrame, hclocks ch]
  · rw [hdrives]
    exact ⟨rfl, rfl, rfl, rfl, rfl, rfl, rfl, rfl, rfl, rfl, rfl, rfl, rfl⟩

/-- Settles O27: the line under way is cut short; the next is driven, spoiled for want of a set, or the frame ends. -/
theorem facetSyncDrivesNextLine : Obligations.FacetSyncDrivesNextLine := by
  refine ⟨fun elapsed period s reel old hsync hphase hreel hdrive => ?_, fun elapsed period s reel hsync hphase hreel
    hidle hlast => ?idle⟩
  case idle =>
    have hexec := sosPulse_passed hsync
    obtain ⟨scan, hsynced, -, -, -⟩ := synced_eq elapsed period s
    rw [hsynced] at hexec ⊢
    rw [hexec, facetSync_last (s := { s with scan := scan }) hphase hreel hlast,
      cutLine_idle (s := { s with scan := scan }) hidle,
      exec_frameCleanEnd_last (s := { s with scan := scan }) hsync.released hphase hreel hlast]
  intro begun marked
  have hexec := sosPulse_passed hsync
  obtain ⟨scan, hsynced, -, hcorrections, hgeometry⟩ := synced_eq elapsed period s
  rw [hsynced] at hexec ⊢
  have hcut : cutLine elapsed { s with scan := scan } =
      { s with scan := scan, seq := { s.seq with saturation := marked } } :=
    cutLine_begun (s := { s with scan := scan }) hdrive hreel (congrArg Geometry.pixelPeriod hgeometry)
  refine ⟨fun j rest hlive hwork hmore => ⟨fun hempty hexpose => ?_, fun hsets => ?_⟩, fun hlast => ?_⟩
  · rw [facetSync_nextLine (s := { s with scan := scan }) hphase hreel hmore hcut] at hexec
    obtain ⟨p, c, r, hx⟩ := hexpose
    rw [driveLine_underrun (s := State.nextLine marked { s with scan := scan }) hlive hreel hx hempty] at hexec
    have hframe := spoil_frame .underrun (s.seq.lineCounter + 1) none (State.nextLine marked { s with scan := scan })
    exact ⟨_, hexec, by rw [hframe.rest]; rfl,
      (spoil_spoiled .underrun _ none (State.nextLine marked { s with scan := scan })).left rfl rfl rfl rfl (.of_eq rfl),
      ⟨hframe.rest, hframe.monitor, hframe.arbiter, hframe.notices, hframe.sending⟩⟩
  · rw [facetSync_nextLine (s := { s with scan := scan }) hphase hreel hmore hcut] at hexec
    obtain ⟨d, hdriven, hmark, hdrives, hexpose, hflash⟩ :=
      driveLine_driven (b := State.nextLine marked { s with scan := scan }) (s := s) (line := s.seq.lineCounter + 1)
        (facet := s.scan.facetCount) hlive hreel hwork hsets rfl hcorrections (fun _ => rfl) rfl rfl rfl
    refine ⟨(State.nextLine marked { s with scan := scan }).driveLine (s.seq.lineCounter + 1) s.scan.facetCount, d,
      hexec, ?_⟩
    generalize (State.nextLine marked { s with scan := scan }).driveLine (s.seq.lineCounter + 1) s.scan.facetCount = t
      at *
    refine ⟨by rw [hdrives], hdriven, hmark, ?_⟩
    refine ⟨by rw [hdrives]; rfl, by rw [hdrives]; rfl, by rw [hdrives]; exact hphase, by rw [hdrives]; rfl,
      by rw [hdrives]; rfl, by rw [hdrives]; rfl, fun p c r hx => ?_, fun c v hx => hflash c v hx, fun ch => ?_, ?_⟩
    · obtain ⟨hqueue, hprefetched⟩ := hexpose p c r hx
      exact ⟨hqueue, hprefetched.left rfl rfl rfl rfl rfl rfl rfl rfl⟩
    · rw [hdrives]
      exact Rgb.get_map _ _ ch
    · rw [hdrives]
      exact ⟨rfl, rfl, rfl, rfl, rfl, rfl, rfl, rfl, rfl, rfl, rfl, rfl, rfl, rfl, rfl⟩
  · rw [hexec, facetSync_last (s := { s with scan := scan }) hphase hreel hlast, hcut,
      exec_frameCleanEnd_last (s := { s with scan := scan, seq := { s.seq with saturation := marked } })
        hsync.released hphase hreel hlast]

end Sys2Proof.Machine
end

section
/-! Line Data and the frame-store accesses that complete: the write that is claimed, the write that is stored, and the read
whose words join the set in assembly. -/

namespace Sys2Proof.Machine

/-! ## Part of a line (R27) -/

theorem wordsFrom_drop (epoch slot i n k : Nat) (row : List Half) :
    (wordsFrom epoch slot i n row).drop k = wordsFrom epoch slot (i + k) (n - k) (row.drop k) := by
  induction k generalizing i n row with
  | zero => rfl
  | succ k ih =>
    cases n with
    | zero => simp [wordsFrom]
    | succ n =>
      have hi : i + (k + 1) = i + 1 + k := by omega
      cases row with
      | nil => simpa [wordsFrom, hi] using ih (i + 1) n []
      | cons w ws => simpa [wordsFrom, hi] using ih (i + 1) n ws

/-- R27: a write leaves the words of its slot behind its own. -/
theorem Memory.readLine_behind (m : Memory) (epoch slot width : Nat) (words : List Half) :
    (Memory.readLine (Memory.writeLine m slot words) epoch slot width).drop words.length =
      (Memory.readLine m epoch slot width).drop words.length := by
  unfold Memory.readLine Memory.writeLine
  split
  · rfl
  · rw [Table.get_put, if_pos rfl, Option.getD_some, wordsFrom_drop, wordsFrom_drop, List.drop_left]

section LineData

variable {s : State} {m : Message} {rt : Byte} {sel line count : Half} {words : List Half}

/-! ## Line Data (R36, R37) -/

theorem exec_lineData (rt : Byte) (sel line count : Half) (words : List Half) (s : State) :
    exec (.lineData rt sel line count words) s =
      carryOut (.lineData rt sel line count words) (lineDataBlock sel line count words) s := rfl

/-- R36: the rows of Line Data as the manual gives them. -/
def lineDataRows (sel line count : Half) (s : State) : List Check :=
  let d := Table.get s.planes sel.toNat
  [ (d.isNone, .notDefined, sel.toNat),
    (d.any fun p => decide (p.fill = p.limit), .busy, (d.map Plane.fill).getD 0),
    (d.any fun p => decide (line.toNat ≠ p.fill), .outOfOrder, (d.map Plane.fill).getD 0),
    (d.any fun p => decide (count.toNat ≠ p.width), .badLength, (d.map Plane.width).getD 0) ]

theorem firstFailing_lineDataChecks {x : Selector} (hx : x.wire = sel.toNat) (line count : Half) (s : State) :
    firstFailing (lineDataChecks x line count s) = firstFailing (lineDataRows sel line count s) := by
  rw [lineDataChecks, lineDataRows, hx]
  cases Table.get s.planes sel.toNat <;> rfl

/-- R36, R37: Line Data is examined, and the selector's write claimed. -/
theorem lineData_handed (h : s.Handed (.lineData rt sel line count words) m) :
    FirstRefusal (.lineData rt sel line count words) m s (selectorChecks sel s ++ lineDataRows sel line count s) ∧
    (passes (selectorChecks sel s ++ lineDataRows sel line count s) →
      ∃ x : Selector, x.wire = sel.toNat ∧
        exec (.lineData rt sel line count words) s = .next (s.claimWrite x line.toNat words)) := by
  have hexamine := h.examined (checks := selectorChecks sel s ++ lineDataRows sel line count s)
    (effect := State.claimWrite ((Selector.ofWire sel).getD (.global 0)) line.toNat words) (by
      rw [exec_lineData, carryOut_handed h, lineDataBlock, withPlane_examine fun x hwire hsel => ?_]
      refine examine_congr (firstFailing_lineDataChecks hwire line count s) fun _ => ?_
      rw [hsel, Option.getD_some])
  refine ⟨hexamine.1, fun hp => ?_⟩
  obtain ⟨x, hsel, hwire, -, -⟩ := selectorChecks_pass hp
  exact ⟨x, hwire, by rw [hexamine.2 hp, hsel, Option.getD_some]⟩

/-- R37: what the claim of a write leaves. -/
theorem claimWrite_handed (h : s.Handed (.lineData rt sel line count words) m) {x : Selector} {p : Plane}
    (hget : Table.get s.planes x.wire = some p) (n : Nat) :
    s.claimWrite x n words = { s with
      link := { s.link with current := some ⟨m, .waiting⟩ }
      arbiter := Arbiter.serve s.seq.queue.length { s.arbiter with writeWaiting := some ⟨x, p.base + n, words⟩ } } := by
  rw [State.claimWrite, await_handed h, hget]
  rfl

/-- R41: a write that waits alone is served at once. -/
theorem serve_write {a : Arbiter} {w : WriteClaim} (n : Nat) (haccess : a.access = none) (hread : a.readWaiting = none) :
    Arbiter.serve n { a with writeWaiting := some w } =
      { a with access := some (.write w), writeWaiting := none } := by
  simp only [Arbiter.serve, haccess, hread]

/-- R41: an access in progress goes on. -/
theorem serve_busy {a : Arbiter} (n : Nat) (haccess : a.access.isSome) : a.serve n = a := by
  obtain ⟨x, hx⟩ := Option.isSome_iff_exists.1 haccess
  simp only [Arbiter.serve, hx]

end LineData

section Accesses

variable {s t : State} {w : WriteClaim} {c : ReadClaim} {discard : Bool}

/-! ## What the prefetcher and the arbiter do after an access (R41, R42, R93) -/

theorem serve_lastServed (n : Nat) (a : Arbiter) : (a.serve n).lastServed = a.lastServed := by
  simp only [Arbiter.serve]
  split <;> try rfl
  split <;> try rfl
  split <;> rfl

theorem prefetch_lastServed (s : State) : s.prefetch.arbiter.lastServed = s.arbiter.lastServed := by
  rw [State.prefetch, State.serve]
  refine (serve_lastServed _ _).trans ?_
  rw [State.beginSet]
  split <;> rfl

/-- The prefetcher begins no set while a claim of its own waits. -/
theorem Prefetched.of_readWaiting {r : ReadClaim} (h : Prefetched s t) (hr : s.arbiter.readWaiting = some r) :
    t.seq.assembly = s.seq.assembly ∧ Chosen s.seq.queue.length s.arbiter t.arbiter :=
  h.waits fun _ _ _ hbegins => by
    have hnone := hbegins.noRead.1
    rw [hr] at hnone
    cases hnone

/-! ## A write that completes (R38, R39) -/

theorem exec_lineDataWriteComplete (s : State) : exec .lineDataWriteComplete s = event writeComplete s := rfl

theorem exec_prefetchReadComplete (s : State) : exec .prefetchReadComplete s = event readComplete s := rfl

/-- R38: the words are stored and the access is over. -/
def State.stored (w : WriteClaim) (s : State) : State :=
  { s with
    arbiter := { s.arbiter with access := none, lastServed := .planeWriter }
    store := Memory.writeLine s.store w.slot w.words }

theorem writeComplete_eq (h : s.arbiter.access = some (.write w)) :
    writeComplete s = ((s.stored w).noteWritten w.sel).prefetch := by
  rw [writeComplete, h]
  rfl

/-- R38, R39: the fill mark and the reply of a write that completes touch planes and link. -/
theorem noteWritten_eq (s : State) (x : Selector) :
    s.noteWritten x = { s with planes := (s.noteWritten x).planes, link := (s.noteWritten x).link } := by
  rw [State.noteWritten]
  split <;> rfl

theorem noteWritten_defined {x : Selector} {m : Message} {stage : Stage} {p : Plane}
    (hcurrent : s.link.current = some ⟨m, stage⟩) (hget : Table.get s.planes x.wire = some p) :
    (s.noteWritten x).planes = Table.put s.planes x.wire { p with fill := p.fill + 1 } ∧
    (s.noteWritten x).link = { s.link with current := some ⟨m, .replyPending (.accept
      (u16 (p.fill + 1) ++ u8 (if p.fill + 1 = p.limit then 2 else 1)))⟩ } := by
  rw [State.noteWritten, hget]
  refine ⟨rfl, ?_⟩
  simp only [State.accept, State.answer, hcurrent]
  rfl

theorem noteWritten_undefined {x : Selector} {m : Message} {stage : Stage}
    (hcurrent : s.link.current = some ⟨m, stage⟩) (hget : Table.get s.planes x.wire = none) :
    (s.noteWritten x).planes = s.planes ∧
    (s.noteWritten x).link = { s.link with current := some ⟨m, .replyPending (.refuse .notDefined x.wire)⟩ } := by
  rw [State.noteWritten, hget]
  refine ⟨rfl, ?_⟩
  simp only [State.answer, hcurrent]
  rfl

/-! ## A read that completes (R41, R43, R88) -/

/-- R41: the access of the prefetcher is over. -/
def State.readDone (s : State) : State :=
  { s with arbiter := { s.arbiter with access := none, lastServed := .prefetcher } }

theorem readComplete_discards (h : s.arbiter.access = some (.read c true)) : readComplete s = s.readDone.prefetch := by
  rw [readComplete, h]
  rfl

theorem readComplete_joins (h : s.arbiter.access = some (.read c false)) :
    readComplete s = (s.readDone.addRow (Memory.readLine s.store s.freeEpoch c.slot c.width)).prefetch := by
  rw [readComplete, h]
  rfl

/-- R88: a row that joins touches the queue, the cursor, the set in assembly and the arbiter. -/
theorem addRow_eq (s : State) (words : List Half) :
    s.addRow words = { s with
      arbiter := (s.addRow words).arbiter
      seq := { s.seq with
        queue := (s.addRow words).seq.queue
        cursor := (s.addRow words).seq.cursor
        assembly := (s.addRow words).seq.assembly } } ∧
    (s.addRow words).arbiter.lastServed = s.arbiter.lastServed := by
  rw [State.addRow]
  split
  · exact ⟨rfl, rfl⟩
  · split
    · exact ⟨rfl, rfl⟩
    · dsimp only
      split <;> exact ⟨rfl, rfl⟩

/-- R88: the row of the last plane completes the set. -/
theorem addRow_last {a : Assembly} {sel : Selector} (words : List Half) (ha : s.seq.assembly = some a)
    (hrest : a.rest = [sel]) :
    s.addRow words = { s with seq := { s.seq with
      assembly := none, queue := s.seq.queue ++ [⟨a.line, a.rows ++ [⟨sel, words⟩]⟩], cursor := a.line + 1 } } := by
  simp only [State.addRow, ha, hrest]

/-- R88, R93: with planes left the read of the next is claimed. -/
theorem addRow_next {a : Assembly} {sel next : Selector} {more : List Selector} {p : Plane} {reel : Reel}
    (words : List Half) (ha : s.seq.assembly = some a) (hrest : a.rest = sel :: next :: more)
    (hp : Table.get s.planes next.wire = some p) (hreel : s.reel = some reel) :
    s.addRow words = { s with
      seq := { s.seq with assembly := some ⟨a.line, a.rows ++ [⟨sel, words⟩], next :: more⟩ }
      arbiter := { s.arbiter with readWaiting := some ⟨next, p.base + a.line, reel.width⟩ } } := by
  simp only [State.addRow, ha, hrest, readClaim, hp, State.rasterWidth, hreel, Option.map_some, Option.getD_some]

end Accesses

/-! ## The obligations -/

/-- Settles O6: the write of the selector's plane is put to the arbiter. -/
theorem lineDataClaimsWrite : Obligations.LineDataClaimsWrite := by
  intro rt sel line count words m s h d checks
  obtain ⟨hrefuses, hclaims⟩ := lineData_handed h
  refine ⟨hrefuses, fun hp => ?_⟩
  obtain ⟨x, hwire, hexec⟩ := hclaims hp
  have hdefined : d.isNone = false := hp (d.isNone, .notDefined, sel.toNat) (by simp [checks])
  cases hd : d with
  | none => simp [hd] at hdefined
  | some p =>
    have hget : Table.get s.planes x.wire = some p := by rw [hwire]; exact hd
    rw [claimWrite_handed h hget] at hexec
    exact ⟨p, x, _, rfl, hwire, hexec, fun haccess hread => serve_write _ haccess hread,
      fun hbusy => serve_busy _ hbusy⟩

/-- Settles O7: the words are stored, the fill mark rises, and the prefetcher's conditions are examined. -/
theorem lineDataWriteStoresLine : Obligations.LineDataWriteStoresLine := by
  intro s m w hreset hcurrent haccess
  have hexec : exec .lineDataWriteComplete s = .next ((s.stored w).noteWritten w.sel).prefetch := by
    rw [exec_lineDataWriteComplete, event_outOfReset hreset, writeComplete_eq haccess]
  have hnoted := noteWritten_eq (s.stored w) w.sel
  have hdefined {p : Plane} (hp : Table.get s.planes w.sel.wire = some p) :=
    noteWritten_defined (s := s.stored w) (x := w.sel) hcurrent hp
  have hundefined (hp : Table.get s.planes w.sel.wire = none) :=
    noteWritten_undefined (s := s.stored w) (x := w.sel) hcurrent hp
  generalize (s.stored w).noteWritten w.sel = v at *
  have honly := prefetch_only v
  have hlast := prefetch_lastServed v
  have hprefetched := prefetch_prefetched v
  generalize v.prefetch = t at *
  have hstore : t.store = Memory.writeLine s.store w.slot w.words := by rw [honly, hnoted]; rfl
  have hepoch : t.freeEpoch = s.freeEpoch := by rw [honly, hnoted]; rfl
  have hplanes : t.planes = v.planes := by rw [honly]
  have hlink : t.link = v.link := by rw [honly]
  have hseq : v.seq = s.seq := by rw [hnoted]; rfl
  have harbiter : v.arbiter = { s.arbiter with access := none, lastServed := .planeWriter } := by rw [hnoted]; rfl
  have hkept : { s.seq with assembly := t.seq.assembly } = t.seq := by rw [honly, hseq]
  refine ⟨t, hexec, ?_, fun slot width hslot => ?_, fun width _ => ?_, fun p hp => ?_, fun hp => ?_, ?_, fun r hr => ?_,
    ?_, ?_⟩
  · rw [hstore, Memory.readLine_writeLine]
  · rw [hstore, hepoch, Memory.readLine_other _ hslot]
  · rw [hstore, hepoch, Memory.readLine_behind]
  · rw [hplanes, hlink]
    exact hdefined hp
  · rw [hplanes, hlink]
    exact hundefined hp
  · rw [hlast, harbiter]
  · obtain ⟨hassembly, hchosen⟩ := hprefetched.of_readWaiting (r := r) (by rw [harbiter]; exact hr)
    rw [harbiter] at hchosen
    refine ⟨hchosen.read r rfl hr (.inr (.inr rfl)), ?_⟩
    rw [← hkept, hassembly, hseq]
  · exact hprefetched.left (by rw [hnoted]; rfl) (by rw [hnoted]; rfl) hplanes (by rw [hseq]) (by rw [hseq])
      (by rw [hseq]) (by rw [hseq]) harbiter.symm
  · rw [hkept, honly, hnoted]
    rfl

/-- Settles O8: discarded words join nothing; others complete the set or claim the next plane's read. -/
theorem prefetchReadFillsLineSet : Obligations.PrefetchReadFillsLineSet := by
  intro s c discard hreset haccess served
  have hexec : exec .prefetchReadComplete s = .next (readComplete s) := by
    rw [exec_prefetchReadComplete, event_outOfReset hreset]
  refine ⟨readComplete s, hexec, ?_, ?_, ?_, ?_⟩
  · cases discard with
    | true => rw [readComplete_discards haccess, prefetch_lastServed]; rfl
    | false => rw [readComplete_joins haccess, prefetch_lastServed, (addRow_eq _ _).2]; rfl
  · rintro rfl
    rw [readComplete_discards haccess]
    exact ⟨by rw [prefetch_only]; rfl, by rw [prefetch_only]; rfl, prefetch_prefetched _⟩
  · rintro rfl a sel rest ha hrest rows
    rw [readComplete_joins haccess]
    refine ⟨fun hlast => ?_, fun next more p reel hmore hp hreel => ?_⟩
    · rw [addRow_last (s := s.readDone) _ ha (hrest.trans (by rw [hlast]))]
      exact ⟨by rw [prefetch_only]; rfl, by rw [prefetch_only], prefetch_prefetched _⟩
    · intro claim
      have hadd := addRow_next (s := s.readDone) (Memory.readLine s.store s.freeEpoch c.slot c.width) ha
        (hrest.trans (by rw [hmore])) hp hreel
      generalize s.readDone.addRow (Memory.readLine s.store s.freeEpoch c.slot c.width) = v at *
      have hseq : v.seq = { s.seq with assembly := some ⟨a.line, rows, rest⟩ } := by rw [hadd, hmore]; rfl
      have harbiter : v.arbiter = { served with readWaiting := some claim } := by rw [hadd]; rfl
      have hlen : v.seq.queue.length = s.seq.queue.length := by rw [hseq]
      obtain ⟨hassembly, hchosen⟩ := (prefetch_prefetched v).of_readWaiting (r := claim) (by rw [harbiter])
      rw [harbiter, hlen] at hchosen
      refine ⟨?_, hchosen, fun hwrite => ?_, fun w hwrite => ?_⟩
      · rw [← hseq, prefetch_only, hassembly]
      · rw [hchosen.read claim rfl rfl (.inl hwrite)]
      · by_cases hfew : s.seq.queue.length < 4
        · rw [if_pos hfew, hchosen.read claim rfl rfl (.inr (.inl hfew))]
        · rw [if_neg hfew, hchosen.write w rfl hwrite (.inr ⟨Nat.not_lt.1 hfew, rfl⟩)]
  · cases discard with
    | true => rw [readComplete_discards haccess, prefetch_only]; rfl
    | false => rw [readComplete_joins haccess, prefetch_only, (addRow_eq _ _).1]; rfl

end Sys2Proof.Machine
end

section
/-! The laser inputs, the monitor clocks, the readings of a line, and the trim update. -/

namespace Sys2Proof.Machine

section Lasers

variable {s t : State} {old new : Rgb Bool} {ch : Channel} {level : Bool}

/-! ## The interlock and LASER_READY (R154, R156) -/

theorem exec_interlockChange (level : Bool) (s : State) : exec (.interlockChange level) s =
    lineChange { s.pins.levels with interlock := level } (interlockEffect level) s := rfl

theorem exec_laserReadyChange (levels : Rgb Bool) (s : State) : exec (.laserReadyChange levels) s =
    lineChange { s.pins.levels with laserReady := levels } (laserReadyEffect s.pins.levels.laserReady levels) s := rfl

theorem interlockChange_flagged (hreset : s.resetPin = false) (h : level ≠ s.pins.levels.interlock) :
    exec (.interlockChange level) s = .next (interlockEffect level
      (s.withLines { s.pins.levels with interlock := level } { s.pins.changed with interlock := true })) := by
  rw [exec_interlockChange]
  refine lineChange_flagged hreset (fun he => h (congrArg Lines.interlock he)) ?_
  simp [Lines.zip, Rgb.zip, sticky _ _ h]

theorem laserReadyChange_flagged (hreset : s.resetPin = false) (h : new ≠ s.pins.levels.laserReady) :
    exec (.laserReadyChange new) s = .next (laserReadyEffect s.pins.levels.laserReady new
      (s.withLines { s.pins.levels with laserReady := new } { s.pins.changed with
        laserReady := Rgb.zip (· || ·) s.pins.changed.laserReady (Rgb.zip xor s.pins.levels.laserReady new) })) := by
  rw [exec_laserReadyChange]
  refine lineChange_flagged hreset (fun he => h (congrArg Lines.laserReady he)) ?_
  simp [Lines.zip]

/-- R107, R112: a fault of a recorder that drives no line leaves none driven. -/
theorem meetFault_blanked (cause : SpoilCause) (ch : Option Channel) (h : s.drive = none) :
    (s.meetFault cause ch).drive = none := by
  unfold State.meetFault
  split
  · exact (spoil_spoiled _ _ _ _).blanked
  · exact (halt_halted _ _).blanked
  · split
    · exact h
    · exact (halt_halted _ _).blanked

/-- R156, R158: the channels at these states, and blanked. -/
def State.dark (lasers : Rgb LaserState) (s : State) : State := blankDrive { s with lasers := lasers }

/-- A fault met in the dark: what it does to the run, and the lasers and the drive it leaves. -/
theorem dark_meetFault (cause : SpoilCause) (ch : Option Channel) (lasers : Rgb LaserState) (s : State) :
    let t := (s.dark lasers).meetFault cause ch
    t.lasers = lasers ∧ t.drive = none ∧ MetFault cause cause.reason ch s t ∧ RunTouched (s.dark lasers) t := by
  intro t
  obtain ⟨hmet, htouched⟩ := meetFault_met cause ch (s.dark lasers)
  exact ⟨congrArg State.lasers htouched.rest, meetFault_blanked cause ch rfl,
    hmet.left rfl rfl rfl rfl rfl (.of_eq rfl), htouched⟩

/-- R154: a rise takes WARMING to READY, a fall READY to FAULT. -/
theorem nextLaser_eq (o n : Bool) (st : LaserState) :
    nextLaser o n st =
      if o = false ∧ n = true ∧ st = .warming then .ready
      else if o = true ∧ n = false ∧ st = .ready then .fault else st := by
  cases o <;> cases n <;> cases st <;> rfl

/-- R154: a channel enters FAULT where its line falls in READY. -/
theorem nextLaser_faults (o n : Bool) (st : LaserState) :
    (st ≠ nextLaser o n st ∧ nextLaser o n st = .fault) ↔ o = true ∧ n = false ∧ st = .ready := by
  cases o <;> cases n <;> cases st <;> simp [nextLaser]

/-- R154: the channels after a change of the LASER_READY lines. -/
def nextLasers (old new : Rgb Bool) (lasers : Rgb LaserState) : Rgb LaserState :=
  Rgb.zip (fun f st => f st) (Rgb.zip nextLaser old new) lasers

theorem nextLasers_get (old new : Rgb Bool) (lasers : Rgb LaserState) (ch : Channel) :
    (nextLasers old new lasers).get ch = nextLaser (old.get ch) (new.get ch) (lasers.get ch) := by
  simp [nextLasers]

/-- R154: a channel whose line falls in READY. -/
def fallsReady (old new : Rgb Bool) (lasers : Rgb LaserState) (ch : Channel) : Prop :=
  old.get ch = true ∧ new.get ch = false ∧ lasers.get ch = .ready

/-- The test by which the model finds the channel that enters FAULT. -/
theorem faulted_get (old new : Rgb Bool) (lasers : Rgb LaserState) (ch : Channel) :
    (Rgb.zip (fun a b => decide (a ≠ b ∧ b = LaserState.fault)) lasers (nextLasers old new lasers)).get ch = true ↔
      fallsReady old new lasers ch := by
  rw [Rgb.get_zip, nextLasers_get, decide_eq_true_iff]
  exact nextLaser_faults _ _ _

theorem laserReadyEffect_quiet (h : ∀ ch, ¬ fallsReady old new s.lasers ch) :
    laserReadyEffect old new s = { s with lasers := nextLasers old new s.lasers } := by
  have hnone : Rgb.first id (Rgb.zip (fun a b => decide (a ≠ b ∧ b = LaserState.fault)) s.lasers
      (nextLasers old new s.lasers)) = none :=
    (Rgb.first_none _ _).2 fun ch => Bool.eq_false_iff.2 (mt (faulted_get _ _ _ _).1 (h ch))
  simp only [nextLasers] at hnone
  simp only [laserReadyEffect, hnone, nextLasers]

theorem laserReadyEffect_faults (h : fallsReady old new s.lasers ch)
    (hfirst : ∀ x : Channel, x.code < ch.code → ¬ fallsReady old new s.lasers x) :
    laserReadyEffect old new s =
      (s.dark (nextLasers old new s.lasers)).meetFault .laserFault (some ch) := by
  have hsome : Rgb.first id (Rgb.zip (fun a b => decide (a ≠ b ∧ b = LaserState.fault)) s.lasers
      (nextLasers old new s.lasers)) = some ch :=
    (Rgb.first_some _ _ _).2 ⟨(faulted_get _ _ _ _).2 h, fun x hx =>
      Bool.eq_false_iff.2 (mt (faulted_get _ _ _ _).1 (hfirst x hx))⟩
  simp only [nextLasers] at hsome
  simp only [laserReadyEffect, hsome, nextLasers, State.dark]

/-- R106: of the channels with a property, one is first in the order red, green, blue. -/
theorem exists_first {p : Channel → Prop} (h : ∃ ch, p ch) : ∃ ch, p ch ∧ ∀ x : Channel, x.code < ch.code → ¬ p x := by
  by_cases hr : p .red
  · exact ⟨.red, hr, fun x hx => absurd hx (by simp [Channel.code])⟩
  · by_cases hg : p .green
    · refine ⟨.green, hg, fun x hx => ?_⟩
      cases x with
      | red => exact hr
      | green | blue => simp [Channel.code] at hx
    · obtain ⟨ch, hch⟩ := h
      cases ch with
      | red => exact absurd hch hr
      | green => exact absurd hch hg
      | blue =>
        refine ⟨.blue, hch, fun x hx => ?_⟩
        cases x with
        | red => exact hr
        | green => exact hg
        | blue => simp [Channel.code] at hx

/-- R106: the first channel is one channel. -/
theorem first_unique {p : Channel → Prop} {x y : Channel} (hx : p x) (hy : p y)
    (hfx : ∀ z : Channel, z.code < x.code → ¬ p z) (hfy : ∀ z : Channel, z.code < y.code → ¬ p z) : x = y := by
  have hle : x.code = y.code := by
    rcases Nat.lt_trichotomy x.code y.code with hlt | heq | hlt
    · exact absurd hx (hfy x hlt)
    · exact heq
    · exact absurd hy (hfx y hlt)
  cases x <;> cases y <;> first | rfl | exact nomatch hle

end Lasers

section Clocks

variable {s : State} {ch : Channel}

/-! ## Monitor clocks (R109, R160) -/

theorem exec_monitorClockLost (ch : Channel) (s : State) : exec (.monitorClockLost ch) s = event (clockLost ch) s := rfl

theorem exec_monitorClockReturn (ch : Channel) (s : State) :
    exec (.monitorClockReturn ch) s = event (clockReturn ch) s := rfl

/-- One channel replaced twice. -/
theorem setChannel_setChannel (ch : Channel) (a b : MonitorChannel) (s : State) :
    (s.setChannel ch a).setChannel ch b = s.setChannel ch b := by
  cases ch <;> rfl

/-- One channel replaced by itself. -/
theorem setChannel_self (ch : Channel) (s : State) : s.setChannel ch (s.monitor.channels.get ch) = s := by
  cases ch <;> rfl

/-- R161: the link once flags `after` are set where flags `before` stood. -/
def Link.noted (before after : MonitorFlags) (l : Link) : Link := if after = before then l else l.raise .monitor

/-- R161: flags set on a channel that has just been replaced. -/
theorem setChannel_setMonitorFlags (ch : Channel) (c : MonitorChannel) (f : MonitorFlags) (s : State) :
    (s.setChannel ch c).setMonitorFlags ch f =
      { s.setChannel ch { c with flags := c.flags.union f } with
        link := s.link.noted c.flags (c.flags.union f) } := by
  have hget : (s.setChannel ch c).monitor.channels.get ch = c := by rw [get_setChannel, if_pos rfl]
  simp only [State.setMonitorFlags, hget, setChannel_setChannel, Link.noted]
  split <;> rfl

/-- R160: a channel whose clock has just been lost. -/
def MonitorChannel.silenced (c : MonitorChannel) : MonitorChannel :=
  { c with lost := true, expecting := false, flags := { c.flags with clockLost := true } }

/-- R160: the loss of a clock less what it does to the run. -/
def State.silence (ch : Channel) (s : State) : State :=
  let v := s.setChannel ch (s.monitor.channels.get ch).silenced
  if (s.monitor.channels.get ch).flags.clockLost then v else v.raise .monitor

theorem clockLost_again (h : (s.monitor.channels.get ch).lost = true) : clockLost ch s = s := by
  rw [clockLost]
  exact if_pos h

theorem clockLost_silences (h : (s.monitor.channels.get ch).lost = false) :
    clockLost ch s = (s.silence ch).meetClockLoss ch := by
  have hunion (f : MonitorFlags) :
      f.union { MonitorFlags.clear with clockLost := true } = { f with clockLost := true } := by
    simp [MonitorFlags.union, MonitorFlags.clear]
  have hsame (f : MonitorFlags) : { f with clockLost := true } = f ↔ f.clockLost = true :=
    ⟨fun he => (congrArg MonitorFlags.clockLost he).symm, fun he => by obtain ⟨⟩ := f; simp_all⟩
  simp only [clockLost, h, Bool.false_eq_true, if_false, setChannel_setMonitorFlags, hunion, Link.noted, hsame,
    State.silence, MonitorChannel.silenced]
  split <;> rfl

/-- R160: what is lost beside the run leaves the run, the sequencer, the jobs and the log. -/
theorem silence_frame (ch : Channel) (s : State) :
    (s.silence ch).seq = s.seq ∧ (s.silence ch).jobs = s.jobs ∧ (s.silence ch).log = s.log := by
  simp only [State.silence]
  split <;> exact ⟨rfl, rfl, rfl⟩

end Clocks

section Readings

variable {s : State} {p : PowerTargets} {ch : Channel} {edges : Rgb (List ClockEdge)} {ones : Rgb (Option Nat)}

/-! ## Readings (R159, R161, R163) -/

theorem exec_powerReading (edges : Rgb (List ClockEdge)) (s : State) :
    exec (.powerReading edges) s = event (powerReading edges) s := rfl

/-- R159, R161: what a reading, or none, does to its channel and the link. -/
theorem takeReading_taken (p : PowerTargets) (ch : Channel) (o : Option Nat) (s : State) :
    s.takeReading p ch o =
      let c := s.monitor.channels.get ch
      let c' := readingTaken p.osr (p.channels.get ch) o c
      { s.setChannel ch c' with link := s.link.noted c.flags c'.flags } := by
  cases o with
  | none =>
    simp only [State.takeReading, readingTaken, Link.noted, if_true, setChannel_self]
  | some n =>
    by_cases hexpect : (s.monitor.channels.get ch).expecting = true
    · have hjudged (c : MonitorChannel) (r : Nat) (t : Target) :
          c.flags.union (judgeReading r t) =
            { c.flags with
              softHigh := c.flags.softHigh || (outside r t.target t.soft && decide (t.target < r))
              softLow := c.flags.softLow || (outside r t.target t.soft && decide (r < t.target))
              hardHigh := c.flags.hardHigh || (outside r t.target t.hard && decide (t.target < r))
              hardLow := c.flags.hardLow || (outside r t.target t.hard && decide (r < t.target)) } := by
        simp only [MonitorFlags.union, judgeReading, outsideWindow_eq, Bool.or_false]
      simp only [State.takeReading, readingTaken, if_pos hexpect, setChannel_setMonitorFlags, MonitorChannel.take,
        hjudged, readingOf, outsideWindow_eq]
    · simp only [State.takeReading, readingTaken, if_neg hexpect, Link.noted, if_true, setChannel_self]

/-- The channel after its reading. -/
def State.read (p : PowerTargets) (ones : Rgb (Option Nat)) (ch : Channel) (s : State) : MonitorChannel :=
  readingTaken p.osr (p.channels.get ch) (ones.get ch) (s.monitor.channels.get ch)

/-- R159, R161: the readings of the three channels, and MONITOR where one of them sets a flag. -/
theorem takeReadings_taken (p : PowerTargets) (ones : Rgb (Option Nat)) (s : State) :
    s.takeReadings p ones = { s with
      monitor := ⟨s.monitor.targets, ⟨s.read p ones .red, s.read p ones .green, s.read p ones .blue⟩⟩
      link := ((s.link.noted s.monitor.channels.red.flags (s.read p ones .red).flags).noted
        s.monitor.channels.green.flags (s.read p ones .green).flags).noted
        s.monitor.channels.blue.flags (s.read p ones .blue).flags } := by
  rw [State.takeReadings, takeReading_taken p .blue, takeReading_taken p .green, takeReading_taken p .red]
  rfl

/-- Raising MONITOR for each of three channels is raising it once. -/
theorem noted_thrice (a a' b b' c c' : MonitorFlags) (l : Link) :
    ((l.noted a a').noted b b').noted c c' =
      if a' = a ∧ b' = b ∧ c' = c then l else l.raise .monitor := by
  simp only [Link.noted]
  by_cases ha : a' = a <;> by_cases hb : b' = b <;> by_cases hc : c' = c <;> simp [ha, hb, hc, raise_raise]

/-- The first channel whose breach counter has risen to the hard count. -/
theorem reached_get {before after : Rgb MonitorChannel} (n : Nat) (ch : Channel) :
    (Rgb.zip (reachedHardCount n) before after).get ch = true ↔ breached n (before.get ch) (after.get ch) := by
  rw [Rgb.get_zip, reachedHardCount, decide_eq_true_iff]
  rfl

theorem powerReading_idle (h : s.seq.phase ≠ .exposing) : powerReading edges s = s := by
  unfold powerReading
  split
  · rename_i hphase
    exact absurd hphase h
  all_goals rfl

/-- The readings that the filters complete. -/
def State.filtered (p : PowerTargets) (edges : Rgb (List ClockEdge)) (s : State) : Rgb (Option Nat) :=
  edges.map (filterCount p.osr s.pulseLength)

theorem powerReading_quiet (htargets : s.monitor.targets = some p) (hphase : s.seq.phase = .exposing)
    (hquiet : ∀ ch, ¬ breached p.hardCount (s.monitor.channels.get ch)
      ((s.takeReadings p (s.filtered p edges)).monitor.channels.get ch)) :
    powerReading edges s = s.takeReadings p (s.filtered p edges) := by
  have hnone : Rgb.first id (Rgb.zip (reachedHardCount p.hardCount) s.monitor.channels
      (s.takeReadings p (s.filtered p edges)).monitor.channels) = none :=
    (Rgb.first_none _ _).2 fun ch => Bool.eq_false_iff.2 (mt (reached_get _ _).1 (hquiet ch))
  simp only [State.filtered] at hnone
  simp only [powerReading, htargets, hphase, hnone, State.filtered]

theorem powerReading_spoils (htargets : s.monitor.targets = some p) (hphase : s.seq.phase = .exposing)
    (h : breached p.hardCount (s.monitor.channels.get ch)
      ((s.takeReadings p (s.filtered p edges)).monitor.channels.get ch))
    (hfirst : ∀ x : Channel, x.code < ch.code → ¬ breached p.hardCount (s.monitor.channels.get x)
      ((s.takeReadings p (s.filtered p edges)).monitor.channels.get x)) :
    powerReading edges s =
      (s.takeReadings p (s.filtered p edges)).spoil .powerFault s.seq.lineCounter (some ch) := by
  have hsome : Rgb.first id (Rgb.zip (reachedHardCount p.hardCount) s.monitor.channels
      (s.takeReadings p (s.filtered p edges)).monitor.channels) = some ch :=
    (Rgb.first_some _ _ _).2 ⟨(reached_get _ _).2 h, fun x hx =>
      Bool.eq_false_iff.2 (mt (reached_get _ _).1 (hfirst x hx))⟩
  have hseq : (s.takeReadings p (s.filtered p edges)).seq = s.seq := by simp
  simp only [State.filtered] at hsome hseq
  simp only [powerReading, htargets, hphase, hsome, hseq, State.filtered]

end Readings

/-! ## The obligations -/

/-- Settles O37: the opening interlock meets the run in the dark, and so does the first channel that enters FAULT. -/
theorem laserInputsGateDrive : Obligations.LaserInputsGateDrive := by
  intro s hreset lines dark
  refine ⟨fun level => ⟨?same, fun h => ?closes, fun h => ?opens⟩, fun levels h => ?ready, lineChange_same hreset rfl⟩
  case same =>
    rintro rfl
    exact lineChange_same hreset rfl
  case closes =>
    rintro rfl
    exact interlockChange_flagged hreset h
  case opens =>
    rintro rfl
    exact ⟨_, interlockChange_flagged hreset h, dark_meetFault .interlock none ⟨.off, .off, .off⟩ _⟩
  case ready =>
    intro old u fails
    have hexec := laserReadyChange_flagged hreset h
    have hget (ch : Channel) : (nextLasers old levels s.lasers).get ch =
        if old.get ch = false ∧ levels.get ch = true ∧ s.lasers.get ch = .warming then .ready
        else if old.get ch = true ∧ levels.get ch = false ∧ s.lasers.get ch = .ready then .fault
        else s.lasers.get ch := by
      rw [nextLasers_get, nextLaser_eq]
    by_cases hany : ∃ ch, fails ch
    · obtain ⟨ch, hch, hfirst⟩ := exists_first hany
      obtain ⟨hlasers, hdrive, hmet, htouched⟩ :=
        dark_meetFault .laserFault (some ch) (nextLasers old levels s.lasers) u
      have hfault : exec (.laserReadyChange levels) s =
          .next ((u.dark (nextLasers old levels s.lasers)).meetFault .laserFault (some ch)) :=
        hexec.trans (congrArg Host.Outcome.next (laserReadyEffect_faults (s := u) hch hfirst))
      refine ⟨_, hfault, fun x => ?_, fun hquiet => absurd hch (hquiet ch), fun x hx hxfirst => ?_⟩
      · exact (congrArg (fun l : Rgb LaserState => l.get x) hlasers).trans (hget x)
      · obtain rfl : x = ch := first_unique hx hch hxfirst hfirst
        refine ⟨hdrive, hmet, ?_⟩
        rw [hlasers]
        exact htouched
    · have hquiet : ∀ ch, ¬ fails ch := not_exists.1 hany
      exact ⟨_, hexec.trans (congrArg Host.Outcome.next (laserReadyEffect_quiet (s := u) hquiet)), hget, fun _ => rfl,
        fun ch hch => absurd hch (hquiet ch)⟩

/-- Settles O38: what the run meets rests on the phase. -/
theorem monitorClockIsWatched : Obligations.MonitorClockIsWatched := by
  intro ch s hreset c v u
  have hu : s.silence ch = u := rfl
  obtain ⟨hseq, hjobs, hlog⟩ := silence_frame ch s
  rw [hu] at hseq hjobs hlog
  refine ⟨by rw [exec_monitorClockReturn, event_outOfReset hreset]; rfl, fun hlost => ?_, fun hpresent => ?_⟩
  · rw [exec_monitorClockLost, event_outOfReset hreset, clockLost_again hlost]
  · rw [exec_monitorClockLost, event_outOfReset hreset, clockLost_silences hpresent, hu, State.meetClockLoss, hseq]
    refine ⟨fun hphase => by rw [hphase], fun hphase => ?_, fun hphase => ?_⟩
    · rw [hphase]
      cases s.seq.suspect <;> rfl
    · rw [hphase]
      obtain ⟨hframe, hj, hl⟩ := halt_frame .monitorLost u
      exact ⟨_, rfl, halt_halted _ _, hframe, hj.trans hjobs, hl.trans hlog⟩

/-- Settles O40: the filters' readings are taken, and the first channel at its hard count spoils the frame. -/
theorem powerReadingIsJudged : Obligations.PowerReadingIsJudged := by
  refine ⟨fun edges s hreset hphase => ?_, fun edges s p hreset htargets hphase => ?_⟩
  · rw [exec_powerReading, event_outOfReset hreset, powerReading_idle hphase]
  · intro pulse
    refine ⟨s.filtered p edges, fun ch n => ?_, ?_⟩
    · rw [State.filtered, Rgb.get_map, pulseLength_eq]
      exact filterCount_completes _ _ _ _
    · intro after reaches taken u
      have hu : s.takeReadings p (s.filtered p edges) = u := by
        rw [takeReadings_taken, noted_thrice, htargets]
        by_cases hsame : (after .red).flags = s.monitor.channels.red.flags ∧
            (after .green).flags = s.monitor.channels.green.flags ∧ (after .blue).flags = s.monitor.channels.blue.flags
        · exact (congrArg (fun l => ({ taken with link := l } : State)) (if_pos hsame)).trans (if_pos hsame).symm
        · exact (congrArg (fun l => ({ taken with link := l } : State)) (if_neg hsame)).trans (if_neg hsame).symm
      have hafter (ch : Channel) : (s.takeReadings p (s.filtered p edges)).monitor.channels.get ch = after ch := by
        rw [takeReadings_taken]
        cases ch <;> rfl
      rw [exec_powerReading, event_outOfReset hreset]
      refine ⟨fun hquiet => ?_, fun ch hch hfirst => ?_⟩
      · rw [powerReading_quiet htargets hphase fun ch => by rw [hafter]; exact hquiet ch, hu]
      · rw [powerReading_spoils (ch := ch) htargets hphase (by rw [hafter]; exact hch)
          fun x hx => by rw [hafter]; exact hfirst x hx, hu]
        exact ⟨_, rfl, spoil_spoiled _ _ _ _, spoil_frame _ _ _ _⟩

/-- Settles O41: the trim update channel by channel. -/
theorem trimUpdateFollowsMean : Obligations.TrimUpdateFollowsMean := by
  intro s ch c t c'
  obtain ⟨hchannel, hquiet, hlimited, hupdate⟩ := trimUpdate_trimmed s
  have hlink : t.link = { s.link with notices := t.link.notices, transmitter := t.link.transmitter } := by
    by_cases hlimits : s.trimLimits
    · rw [show t.link = (s.raise .monitor).link from hlimited hlimits]
      exact raise_link s .monitor
    · rw [show t.link = s.link from hquiet hlimits]
  refine ⟨fun p htargets hvalid happlied => ?_, fun hkept => ?_, fun hsame => ?_, fun hset => ?_, ?_, ?_⟩
  · intro raw stepped
    have hmean : max c.mean 1 = if c.mean = 0 then 1 else c.mean := by split <;> omega
    have hc' : c' = trimmed s.monitor.targets ch c := hchannel ch
    rw [hc', htargets]
    refine (if_pos ⟨hvalid, happlied⟩).trans ?_
    rw [hmean]
  · have hc' : c' = trimmed s.monitor.targets ch c := hchannel ch
    rw [hc']
    unfold trimmed
    split
    · rename_i p htargets
      refine if_neg fun ⟨hvalid, happlied⟩ => ?_
      rcases hkept with hnone | hinvalid | happlied'
      · rw [htargets] at hnone
        cases hnone
      · rw [hvalid] at hinvalid
        cases hinvalid
      · rw [happlied] at happlied'
        cases happlied'
    · rfl
  · refine hquiet fun ⟨x, hx⟩ => hx ?_
    rw [← hchannel x]
    exact hsame x
  · refine hlimited ⟨ch, ?_⟩
    rw [← hchannel ch]
    exact hset
  · rw [← hlink]
    have htargets : t.monitor = { s.monitor with channels := t.monitor.channels } := by
      rw [show t.monitor = s.trimUpdate.monitor from rfl, hupdate]
    rw [htargets]
    exact hupdate
  · rw [show t.monitor.targets = s.trimUpdate.monitor.targets from rfl, hupdate]

end Sys2Proof.Machine
end

section
/-! The scan's pulses and deadlines, in calibration and in lock supervision. -/

namespace Sys2Proof.Machine

section Calibrating

variable {s : State} {c : Calibration} {x : Scan} {elapsed m : Nat}

/-! ## Pulses in CALIBRATING (R143 to R145) -/

theorem exec_sosPulse (elapsed : Nat) (s : State) : exec (.sosPulse elapsed) s = event (sosPulse elapsed) s := rfl

theorem exec_indexPulse (s : State) : exec .indexPulse s = event indexPulse s := rfl

theorem exec_calibrationIndexDeadline (s : State) :
    exec .calibrationIndexDeadline s = event (calibrationDeadline .index) s := rfl

theorem exec_sosGapWatchdogExpiry (s : State) :
    exec .sosGapWatchdogExpiry s = event (calibrationDeadline .sos) s := rfl

theorem exec_noSignalWatchdogExpiry (s : State) : exec .noSignalWatchdogExpiry s = event noSignalExpiry s := rfl

/-- R136: the first SOS is only seen. -/
theorem measure_first (h : x.sosSeen = false) : x.measure elapsed = { x with sosSeen := true, period := none } := by
  rw [Scan.measure, h]
  rfl

/-- R136: a later SOS is measured. -/
theorem measure_seen (h : x.sosSeen = true) : x.measure elapsed = { x with period := some (elapsed / 10 * 10) } := by
  rw [Scan.measure, h, if_pos rfl]

theorem sosPulse_calibrating (hstate : s.scan.state = .calibrating) (hcal : s.scan.calibration = some c) :
    sosPulse elapsed s = { s with scan :=
      (s.scan.measure elapsed).calibrationSos ((s.scan.measure elapsed).period.getD 0) c } := by
  simp only [sosPulse, hstate, hcal]

/-- R143: an SOS before the opening INDEX restarts the watchdog only. -/
theorem calibrationSos_opening (h : c.revolution = 0) :
    x.calibrationSos m c =
      { x with calibration := some { c with sosSeen := true, sosGap := 2 * x.geometry.period } } := by
  rw [Scan.calibrationSos]
  exact if_pos h

/-- R143: an SOS of a facet is counted and its period captured. -/
theorem calibrationSos_captures (h : c.revolution ≠ 0) (hfacet : x.facetCount < x.geometry.facets)
    (hcount : x.facetCount < 255) :
    x.calibrationSos m c = { x with
      facetCount := x.facetCount + 1
      calibration := some { c with
        sosSeen := true
        sosGap := 2 * x.geometry.period
        sums := c.sums.modify x.facetCount (· + m)
        rangeFault :=
          if c.rangeFault = none ∧ (m * 100 < x.geometry.period * 95 ∨ x.geometry.period * 105 < m * 100) then
            some ⟨c.revolution, x.facetCount, m⟩
          else c.rangeFault } } := by
  have hmin : min (x.facetCount + 1) 255 = x.facetCount + 1 := by omega
  simp only [Scan.calibrationSos, h, if_false, hfacet, if_true, hmin, Calibration.capture, outsideRange,
    Bool.and_eq_true, Option.isNone_iff_eq_none, decide_eq_true_iff, Geometry.sosGap]

/-- R143: an SOS beyond the last facet is counted only. -/
theorem calibrationSos_beyond (h : c.revolution ≠ 0) (hfacet : x.geometry.facets ≤ x.facetCount) :
    x.calibrationSos m c = { x with
      facetCount := min (x.facetCount + 1) 255
      calibration := some { c with sosSeen := true, sosGap := 2 * x.geometry.period } } := by
  simp only [Scan.calibrationSos, h, if_false, Nat.not_lt.2 hfacet, Geometry.sosGap]

theorem indexPulse_calibrating (hstate : s.scan.state = .calibrating) (hcal : s.scan.calibration = some c) :
    indexPulse s = s.calibrationIndex c := by
  simp only [indexPulse, hstate, hcal]

theorem calibrationIndex_waits (h : c.revolution = 0) (hseen : c.sosSeen = false) :
    s.calibrationIndex c = { s with scan := { s.scan with
      calibration := some { c with indexDeadline := 4 * s.scan.geometry.facets * s.scan.geometry.period } } } := by
  simp only [State.calibrationIndex, h, if_true, hseen, Bool.false_eq_true, if_false, Geometry.indexDeadline]

theorem calibrationIndex_opens (h : c.revolution = 0) (hseen : c.sosSeen = true) :
    s.calibrationIndex c = { s with scan := { s.scan with
      facetCount := 0
      calibration := some { c with
        revolution := 1, indexDeadline := 4 * s.scan.geometry.facets * s.scan.geometry.period } } } := by
  simp only [State.calibrationIndex, h, if_true, hseen, Geometry.indexDeadline]

/-- R143: the count fault after an INDEX. -/
def countedFault (s : State) (c : Calibration) : Option CountFault :=
  if c.countFault = none ∧ s.scan.facetCount ≠ s.scan.geometry.facets then some ⟨c.revolution, s.scan.facetCount⟩
  else c.countFault

/-- R143: the calibration after an INDEX has ended a revolution. -/
def Calibration.turned (s : State) (c : Calibration) : Calibration :=
  { c with
    indexDeadline := 4 * s.scan.geometry.facets * s.scan.geometry.period
    completed := c.completed + 1
    countFault := countedFault s c }

theorem calibrationIndex_turns (h : c.revolution ≠ 0) (hmore : c.revolution ≠ s.scan.geometry.revolutions) :
    s.calibrationIndex c = { s with scan := { s.scan with
      facetCount := 0, calibration := some { c.turned s with revolution := c.revolution + 1 } } } := by
  simp only [State.calibrationIndex, h, hmore, if_false, Geometry.indexDeadline, Calibration.turned, countedFault,
    Bool.and_eq_true, Option.isNone_iff_eq_none, decide_eq_true_iff]

theorem calibrationIndex_closes (h : c.revolution ≠ 0) (hlast : c.revolution = s.scan.geometry.revolutions) :
    s.calibrationIndex c = s.judgeCalibration (c.turned s) := by
  have hzero : ¬ s.scan.geometry.revolutions = 0 := hlast ▸ h
  simp only [State.calibrationIndex, hlast, hzero, if_true, if_false, Geometry.indexDeadline, Calibration.turned,
    countedFault, Bool.and_eq_true, Option.isNone_iff_eq_none, decide_eq_true_iff]

theorem judgeCalibration_count {f : CountFault} (h : c.countFault = some f) :
    s.judgeCalibration c = s.failCalibration (.facetCount c.completed f.revolution f.pulses) := by
  rw [State.judgeCalibration, h]

theorem judgeCalibration_range {f : RangeFault} (h : c.countFault = none) (hrange : c.rangeFault = some f) :
    s.judgeCalibration c = s.failCalibration (.outOfRange c.completed f.facet f.period) := by
  rw [State.judgeCalibration, h, hrange]

theorem judgeCalibration_locks (h : c.countFault = none) (hrange : c.rangeFault = none) :
    s.judgeCalibration c = State.raise .scan { s with scan := { s.scan with
      state := .locked
      captured := some (c.sums.map fun sum => sum / s.scan.geometry.revolutions / 10 * 10)
      misses := 0
      facetCount := 0
      outcome := .locked c.completed
      calibration := none
      noSignal := some (2 * s.scan.geometry.period) } } := by
  rw [State.judgeCalibration, h, hrange]
  rfl

theorem calibrationDeadline_fails (d : Deadline) (hstate : s.scan.state = .calibrating)
    (hcal : s.scan.calibration = some c) : calibrationDeadline d s = s.failCalibration (.noSignal c.completed d) := by
  simp only [calibrationDeadline, hstate, hcal]

end Calibrating

section Supervising

variable {s : State} {elapsed p : Nat} {periods : List Nat}

/-! ## Lock supervision (R146 to R148) -/

/-- A sync that finds the sequencer in BETWEEN has no effect on it. -/
theorem facetSync_between (h : s.seq.phase = .between) (facet elapsed : Nat) : s.facetSync facet elapsed = s := by
  rw [State.facetSync, h]

/-- R146: a period further from the captured one than the tolerance allows is a miss. -/
theorem goodPeriod_misses {tolerance m : Nat} (h : p * tolerance < (max m p - min m p) * 1000000) :
    goodPeriod tolerance m p = false := by
  rw [goodPeriod]
  exact decide_eq_false (Nat.not_le.2 h)

/-- R146: the scan after an SOS in LOCKED that is not passed on. -/
def State.counted (elapsed misses : Nat) (s : State) : State :=
  { s with scan := { s.scan with
      sosSeen := true, period := some (elapsed / 10 * 10), facetCount := s.scan.facetCount + 1, misses := misses } }

theorem sosPulse_beyond (hlocked : s.scan.state = .locked) (hseen : s.scan.sosSeen = true)
    (hfacet : s.scan.geometry.facets ≤ s.scan.facetCount) :
    sosPulse elapsed s = (s.counted elapsed s.scan.misses).loseLock .facetCount := by
  simp only [sosPulse, hlocked, State.supervise, Scan.measure, hseen, if_true, Nat.lt_succ_of_le hfacet, State.counted]

theorem sosPulse_limit (hlocked : s.scan.state = .locked) (hseen : s.scan.sosSeen = true)
    (hfacet : s.scan.facetCount < s.scan.geometry.facets) (hperiods : s.scan.captured = some periods)
    (hp : periods[s.scan.facetCount]? = some p)
    (hbad : goodPeriod s.scan.geometry.tolerance (elapsed / 10 * 10) p = false)
    (hlimit : s.scan.misses + 1 = s.scan.geometry.missLimit) :
    sosPulse elapsed s = (s.counted elapsed (s.scan.misses + 1)).loseLock .period := by
  simp only [sosPulse, hlocked, State.supervise, Scan.measure, hseen, if_true, Option.getD_some, hperiods, List.getD,
    hp, hbad, Nat.not_lt.2 (Nat.succ_le_of_lt hfacet), if_false, hlimit, Bool.not_false, Bool.true_and, decide_true,
    State.counted, Bool.false_eq_true]

theorem sosPulse_measured (h : s.scan.state = .unlocked ∨ ∃ cause, s.scan.state = .lost cause) :
    sosPulse elapsed s = { s with scan := s.scan.measure elapsed } := by
  obtain h | ⟨cause, h⟩ := h <;> simp only [sosPulse, h]

theorem indexPulse_closes (hlocked : s.scan.state = .locked) (h : s.scan.facetCount = s.scan.geometry.facets) :
    indexPulse s = { s with scan := { s.scan with facetCount := 0 } } := by
  simp only [indexPulse, hlocked, if_pos h]

theorem indexPulse_loses (hlocked : s.scan.state = .locked) (h : s.scan.facetCount ≠ s.scan.geometry.facets) :
    indexPulse s = s.loseLock .facetCount := by
  simp only [indexPulse, hlocked, if_neg h]

/-- R136, R147: outside LOCKED and CALIBRATING neither INDEX nor a deadline does anything. -/
theorem pulses_idle (h : s.scan.state = .unlocked ∨ ∃ cause, s.scan.state = .lost cause) :
    indexPulse s = s ∧ noSignalExpiry s = s ∧ ∀ d, calibrationDeadline d s = s := by
  obtain h | ⟨cause, h⟩ := h <;> simp [indexPulse, noSignalExpiry, calibrationDeadline, h]

theorem noSignalExpiry_loses (h : s.scan.state = .locked) : noSignalExpiry s = s.loseLock .noSignal := by
  rw [noSignalExpiry, h]

end Supervising

/-! ## The obligations -/

/-- Settles O34: each pulse by the revolution it falls in, each deadline by the calibration under way. -/
theorem calibrationCapturesPeriods : Obligations.CalibrationCapturesPeriods := by
  intro s c elapsed hreset hstate hcal g m at_ ended
  have hsos : exec (.sosPulse elapsed) s = .next
      { s with scan := (s.scan.measure elapsed).calibrationSos ((s.scan.measure elapsed).period.getD 0) c } := by
    rw [exec_sosPulse, event_outOfReset hreset, sosPulse_calibrating hstate hcal]
  have hmeasured (hseen : s.scan.sosSeen = true) : exec (.sosPulse elapsed) s = .next
      { s with scan := ({ s.scan with period := some m } : Scan).calibrationSos m c } := by
    rw [hsos, measure_seen hseen]
    rfl
  have hindex : exec .indexPulse s = .next (s.calibrationIndex c) := by
    rw [exec_indexPulse, event_outOfReset hreset, indexPulse_calibrating hstate hcal]
  refine ⟨fun hopen hfirst => ?_, fun hopen hseen => ?_, fun hrev hseen hfacet hcount => ?_, fun hrev hseen hfacet => ?_,
    fun hopen hnone => ?_, fun hopen hseen => ?_, fun hrev => ⟨fun hmore => ?_, fun hlast => ⟨fun f hf => ?_,
    fun f hf hrange => ?_, fun hf hrange => ?_⟩⟩, ?_, ?_⟩
  · rw [hsos, measure_first hfirst, calibrationSos_opening hopen]
  · rw [hmeasured hseen, calibrationSos_opening hopen]
  · rw [hmeasured hseen, calibrationSos_captures (x := { s.scan with period := some m }) hrev hfacet hcount]
  · rw [hmeasured hseen, calibrationSos_beyond (x := { s.scan with period := some m }) hrev hfacet]
  · rw [hindex, calibrationIndex_waits hopen hnone]
  · rw [hindex, calibrationIndex_opens hopen hseen]
  · rw [hindex, calibrationIndex_turns hrev hmore]
    rfl
  · rw [hindex, calibrationIndex_closes hrev hlast, judgeCalibration_count (c := c.turned s) hf]
    rfl
  · rw [hindex, calibrationIndex_closes hrev hlast, judgeCalibration_range (c := c.turned s) hf hrange]
    rfl
  · rw [hindex, calibrationIndex_closes hrev hlast, judgeCalibration_locks (c := c.turned s) hf hrange]
    rfl
  · rw [exec_calibrationIndexDeadline, event_outOfReset hreset, calibrationDeadline_fails .index hstate hcal]
    rfl
  · rw [exec_sosGapWatchdogExpiry, event_outOfReset hreset, calibrationDeadline_fails .sos hstate hcal]
    rfl

/-- Settles O35: pulses and the watchdog by the scan's state. -/
theorem lockIsSupervised : Obligations.LockIsSupervised := by
  intro s elapsed hreset m k counted
  have hsos : exec (.sosPulse elapsed) s = .next (sosPulse elapsed s) := by
    rw [exec_sosPulse, event_outOfReset hreset]
  have hindex : exec .indexPulse s = .next (indexPulse s) := by rw [exec_indexPulse, event_outOfReset hreset]
  have hpassed (period : Nat) (hsync : SyncPassed elapsed period s) (hphase : s.seq.phase = .between) :
      exec (.sosPulse elapsed) s = .next (synced elapsed period s) := by
    have hsent := sosPulse_passed hsync
    obtain ⟨scan, hsynced, -, -, -⟩ := synced_eq elapsed period s
    rw [hsynced] at hsent ⊢
    rw [hsent, facetSync_between (s := { s with scan := scan }) hphase]
  refine ⟨hpassed, fun hlocked hseen hfacet => ?_, fun hlocked hseen hfacet periods p hperiods hp hbad =>
    ⟨fun hlimit => ?_, fun hlimit hphase => ?_⟩, fun hlocked hfacet => ?_, fun hlocked hfacet => ?_, fun hlocked => ?_,
    fun hidle => ?_⟩
  · exact ⟨_, hsos.trans (congrArg Host.Outcome.next (sosPulse_beyond hlocked hseen hfacet)), loseLock_lost _ _⟩
  · exact ⟨_, hsos.trans (congrArg Host.Outcome.next
      (sosPulse_limit hlocked hseen hfacet hperiods hp (goodPeriod_misses hbad) hlimit)), loseLock_lost _ _⟩
  · have hmiss : goodFor elapsed s.scan.geometry.tolerance p = false := goodPeriod_misses hbad
    rw [hpassed p ⟨hreset, hlocked, hseen, hfacet, ⟨periods, hperiods, hp⟩, .inr hlimit⟩ hphase]
    simp only [synced, hmiss, Bool.false_eq_true, if_false, counted, m, k]
  · rw [hindex, indexPulse_closes hlocked hfacet]
  · exact ⟨_, hindex.trans (congrArg Host.Outcome.next (indexPulse_loses hlocked hfacet)), loseLock_lost _ _⟩
  · refine ⟨s.loseLock .noSignal, ?_, loseLock_lost _ _⟩
    rw [exec_noSignalWatchdogExpiry, event_outOfReset hreset, noSignalExpiry_loses hlocked]
  · obtain ⟨hi, hn, hd⟩ := pulses_idle hidle
    rw [hsos, hindex, sosPulse_measured hidle, hi, exec_noSignalWatchdogExpiry, exec_calibrationIndexDeadline,
      exec_sosGapWatchdogExpiry, event_outOfReset hreset, event_outOfReset hreset, event_outOfReset hreset, hn, hd, hd]
    exact ⟨rfl, rfl, rfl, rfl, rfl⟩

end Sys2Proof.Machine
end
